-- ==== Sys2Proof/Word.lean ====
section
/-! DEFINITION. The value types of 00_scope R8 and R9, as bit vectors. A signed type is the same bit vector as the
unsigned one of its width; the operators say which reading is meant (two's complement, R9). -/

namespace Sys2Proof

/-- A command word (R57) or any other 32-bit value; bit 0 is the least significant (R8). -/
abbrev Word := BitVec 32

/-- `u8`: one sensor register byte. -/
abbrev Byte := BitVec 8

/-- `u16`. -/
abbrev U16 := BitVec 16

/-- `s16`, two's complement. -/
abbrev S16 := BitVec 16

/-- `u20`: a raw ADC count. -/
abbrev U20 := BitVec 20

/-- `u32`. -/
abbrev U32 := BitVec 32

/-- `s32`, two's complement. -/
abbrev S32 := BitVec 32

end Sys2Proof
end

