-- ==== Sys2Proof/Machine/Operands.lean ====
section
/-! DEFINITION. The operand forms of the block: bit fields of a register byte (40_codec R75, R76), little-endian
calibration words (20_memory R43, 41_calibration R80, R81) and the 20-bit raw count of a burst (20_memory R44). -/

namespace Sys2Proof.Machine

/-- `width` ones at the bottom of a byte, in 8-bit arithmetic (R75's `fmask`). -/
def lowMask (width : Nat) : Byte := (1#8 <<< width) - 1#8

/-- The bits `[start, start + width)` of a byte (R75's `mask`). -/
def fieldMask (start width : Nat) : Byte := lowMask width <<< start

/-- R75's `nb`: the byte `b` with the field replaced by the low `width` bits of `value`. -/
def insertField (b value : Byte) (start width : Nat) : Byte :=
  (b &&& ~~~(fieldMask start width)) ||| ((value &&& lowMask width) <<< start)

/-- R76's result: the field of `b`, moved to bit 0. -/
def extractField (b : Byte) (start width : Nat) : Byte := (b >>> start) &&& lowMask width

/-- The little-endian 16-bit word of two bytes, `b0` from the lower address (R43, R80). Read as two's complement it is
the signed decode of R81. -/
def wordOfBytes (b0 b1 : Byte) : U16 := b1 ++ b0

/-- The raw count of a burst (R44): the 24-bit value, most significant byte first, without its low nibble. -/
def rawCount (msb lsb xlsb : Byte) : U20 := ((msb ++ lsb ++ xlsb : BitVec 24) >>> 4).setWidth 20

end Sys2Proof.Machine
end

