-- ==== Sys2Proof/Syntax.lean ====
section
/-! DEFINITION. The commands (30_encoding R63) and the enumerants their operands are made of (R67–R70). A code that no
enumerant has (mode 10, oversampling 110 and 111, filter 101 to 111) has no term here: the decoder refuses it. -/

namespace Sys2Proof

/-- The operating modes (R67): the operand of SET_MODE and the value of the `MODE` register (R20). -/
inductive Mode where
  /-- code 00 -/
  | sleep
  /-- code 01 -/
  | forced
  /-- code 11 -/
  | normal
deriving DecidableEq, Repr, Inhabited

/-- The oversampling settings `osrs_p` and `osrs_t` (R68). -/
inductive Osrs where
  /-- code 000: no measurement -/
  | skip
  /-- code 001 -/
  | x1
  /-- code 010 -/
  | x2
  /-- code 011 -/
  | x4
  /-- code 100 -/
  | x8
  /-- code 101 -/
  | x16
deriving DecidableEq, Repr, Inhabited

/-- The standby times `t_sb` (R69): all eight codes, in the order of their numbers. -/
inductive Standby where
  /-- code 000: 0.5 ms -/
  | ms0p5
  /-- code 001: 62.5 ms -/
  | ms62p5
  /-- code 010 -/
  | ms125
  /-- code 011 -/
  | ms250
  /-- code 100 -/
  | ms500
  /-- code 101 -/
  | ms1000
  /-- code 110 -/
  | ms2000
  /-- code 111 -/
  | ms4000
deriving DecidableEq, Repr, Inhabited

/-- The filter coefficients (R70). -/
inductive Filter where
  /-- code 000 -/
  | off
  /-- code 001 -/
  | c2
  /-- code 010 -/
  | c4
  /-- code 011 -/
  | c8
  /-- code 100 -/
  | c16
deriving DecidableEq, Repr, Inhabited

/-- The 22 commands of R63, in the opcode table's order. -/
inductive Instr where
  /-- SET_FIELD (R78), format F -/
  | setField (reg : Byte) (start : BitVec 3) (width : BitVec 4) (value : Byte)
  /-- GET_FIELD (R79), format F -/
  | getField (reg : Byte) (start : BitVec 3) (width : BitVec 4)
  /-- INIT (R110) -/
  | init
  /-- DEINIT (R111) -/
  | deinit
  /-- CHECK_ID (R112) -/
  | checkId
  /-- RESET (R113) -/
  | reset
  /-- SET_MODE (R114), format E -/
  | setMode (mode : Mode)
  /-- SET_OSRS_P (R115), format E -/
  | setOsrsP (code : Osrs)
  /-- SET_OSRS_T (R116), format E -/
  | setOsrsT (code : Osrs)
  /-- SET_STANDBY (R117), format E -/
  | setStandby (code : Standby)
  /-- SET_FILTER (R118), format E -/
  | setFilter (code : Filter)
  /-- CONFIGURE_ALL (R119), format K -/
  | configureAll (osrsP osrsT : Osrs) (tsb : Standby) (filter : Filter) (mode : Mode)
  /-- GET_MODE (R121) -/
  | getMode
  /-- GET_OSRS_P (R122) -/
  | getOsrsP
  /-- GET_OSRS_T (R123) -/
  | getOsrsT
  /-- GET_STANDBY (R124) -/
  | getStandby
  /-- GET_FILTER (R125) -/
  | getFilter
  /-- COMP_T (R93), format A -/
  | compT (adc : U20)
  /-- COMP_P (R94), format A -/
  | compP (adc : U20)
  /-- GET_TEMPERATURE (R126) -/
  | getTemperature
  /-- GET_PRESSURE (R127) -/
  | getPressure
  /-- GET_ALL (R128) -/
  | getAll
deriving DecidableEq, Repr, Inhabited

end Sys2Proof
end

