-- ==== Sys2Proof/WellFormed.lean ====
section
/-! DEFINITION. Which commands are legal beyond what their operands' types already say: the span limits of format F
(30_encoding R59) and the target limits of SET_FIELD (40_codec R78). -/

namespace Sys2Proof

/-- R59: `WIDTH` is 1 to 8. -/
def widthLegal (width : BitVec 4) : Bool := 1 ≤ width.toNat && width.toNat ≤ 8

/-- R59: the field ends inside the byte, `START + WIDTH ≤ 8`. -/
def spanLegal (start : BitVec 3) (width : BitVec 4) : Bool := start.toNat + width.toNat ≤ 8

/-- R78: SET_FIELD reaches CTRL_MEAS (0xF4) and CONFIG (0xF5) only. -/
def targetLegal (reg : Byte) : Bool := reg == 0xF4#8 || reg == 0xF5#8

/-- R78: SET_FIELD starts at bit 2 or above, so never in the mode field or in CONFIG[1:0]. -/
def startLegal (start : BitVec 3) : Bool := 2 ≤ start.toNat

/-- The legality of a command. -/
def Instr.wf : Instr → Bool
  | .setField reg start width _ => widthLegal width && spanLegal start width && targetLegal reg && startLegal start
  | .getField _ start width => widthLegal width && spanLegal start width
  | .init => true
  | .deinit => true
  | .checkId => true
  | .reset => true
  | .setMode _ => true
  | .setOsrsP _ => true
  | .setOsrsT _ => true
  | .setStandby _ => true
  | .setFilter _ => true
  | .configureAll _ _ _ _ _ => true
  | .getMode => true
  | .getOsrsP => true
  | .getOsrsT => true
  | .getStandby => true
  | .getFilter => true
  | .compT _ => true
  | .compP _ => true
  | .getTemperature => true
  | .getPressure => true
  | .getAll => true

end Sys2Proof
end

