-- ==== Sys2Proof/Decode.lean ====
section
/-! DEFINITION. The command decoder of 30_encoding R57–R65, total on every 32-bit word and refusing by name, and the
encoder written from the same tables. `decodeTableWord` is the host's reading of the decoder. -/

namespace Sys2Proof

/-- Why a word is no command. The response is ILLEGAL_COMMAND for every one of them (R64). -/
inductive DecodeError where
  /-- the opcode has no row in R63 -/
  | unassignedOpcode
  /-- a must-be-zero bit of the format is set (R58–R62) -/
  | mustBeZero
  /-- format F: `WIDTH` is 0 or above 8 (R59) -/
  | widthOutOfRange
  /-- format F: `START + WIDTH > 8` (R59) -/
  | fieldPastByte
  /-- GET_FIELD with `VALUE ≠ 0` (R59) -/
  | valueNotZero
  /-- SET_FIELD outside CTRL_MEAS[7:2] and CONFIG[7:2] (R78) -/
  | setFieldTarget
  /-- formats E and K: a code that is no legal setter code (R60, R61, R67–R70) -/
  | illegalCode
deriving DecidableEq, Repr

/-! ### Enumerant codes (R67–R70) -/

/-- The code of a mode (R67). -/
def Mode.code : Mode → BitVec 2
  | .sleep => 0b00#2
  | .forced => 0b01#2
  | .normal => 0b11#2

/-- The mode a setter code stands for; 10 is illegal (R67). -/
def Mode.ofCode (c : BitVec 2) : Option Mode :=
  if c = 0b00#2 then some .sleep
  else if c = 0b01#2 then some .forced
  else if c = 0b11#2 then some .normal
  else none

/-- The code of an oversampling setting (R68). -/
def Osrs.code : Osrs → BitVec 3
  | .skip => 0b000#3
  | .x1 => 0b001#3
  | .x2 => 0b010#3
  | .x4 => 0b011#3
  | .x8 => 0b100#3
  | .x16 => 0b101#3

/-- The oversampling a code stands for; 110 and 111 are out of range (R68). -/
def Osrs.ofCode (c : BitVec 3) : Option Osrs :=
  if c = 0b000#3 then some .skip
  else if c = 0b001#3 then some .x1
  else if c = 0b010#3 then some .x2
  else if c = 0b011#3 then some .x4
  else if c = 0b100#3 then some .x8
  else if c = 0b101#3 then some .x16
  else none

/-- The code of a standby time (R69). -/
def Standby.code : Standby → BitVec 3
  | .ms0p5 => 0b000#3
  | .ms62p5 => 0b001#3
  | .ms125 => 0b010#3
  | .ms250 => 0b011#3
  | .ms500 => 0b100#3
  | .ms1000 => 0b101#3
  | .ms2000 => 0b110#3
  | .ms4000 => 0b111#3

/-- The standby time a code stands for; every code is legal (R69). -/
def Standby.ofCode (c : BitVec 3) : Option Standby :=
  if c = 0b000#3 then some .ms0p5
  else if c = 0b001#3 then some .ms62p5
  else if c = 0b010#3 then some .ms125
  else if c = 0b011#3 then some .ms250
  else if c = 0b100#3 then some .ms500
  else if c = 0b101#3 then some .ms1000
  else if c = 0b110#3 then some .ms2000
  else some .ms4000

/-- The code of a filter coefficient (R70). -/
def Filter.code : Filter → BitVec 3
  | .off => 0b000#3
  | .c2 => 0b001#3
  | .c4 => 0b010#3
  | .c8 => 0b011#3
  | .c16 => 0b100#3

/-- The filter coefficient a code stands for; 101, 110 and 111 are out of range (R70). -/
def Filter.ofCode (c : BitVec 3) : Option Filter :=
  if c = 0b000#3 then some .off
  else if c = 0b001#3 then some .c2
  else if c = 0b010#3 then some .c4
  else if c = 0b011#3 then some .c8
  else if c = 0b100#3 then some .c16
  else none

/-! ### The decoder -/

/-- `OP`, bits 31:24 (R57). -/
def opcodeOf (w : Word) : Byte := w.extractLsb' 24 8

/-- Format N (R58): bits 23:0 are zero. -/
def decodeN (i : Instr) (w : Word) : Except DecodeError Instr :=
  if w.extractLsb' 0 24 = 0#24 then .ok i else .error .mustBeZero

/-- Format F for SET_FIELD (R59, R78). -/
def decodeSetField (w : Word) : Except DecodeError Instr :=
  if w.extractLsb' 15 1 ≠ 0#1 then .error .mustBeZero
  else if !widthLegal (w.extractLsb' 8 4) then .error .widthOutOfRange
  else if !spanLegal (w.extractLsb' 12 3) (w.extractLsb' 8 4) then .error .fieldPastByte
  else if !(targetLegal (w.extractLsb' 16 8) && startLegal (w.extractLsb' 12 3)) then .error .setFieldTarget
  else .ok (.setField (w.extractLsb' 16 8) (w.extractLsb' 12 3) (w.extractLsb' 8 4) (w.extractLsb' 0 8))

/-- Format F for GET_FIELD (R59, R79). -/
def decodeGetField (w : Word) : Except DecodeError Instr :=
  if w.extractLsb' 15 1 ≠ 0#1 then .error .mustBeZero
  else if !widthLegal (w.extractLsb' 8 4) then .error .widthOutOfRange
  else if !spanLegal (w.extractLsb' 12 3) (w.extractLsb' 8 4) then .error .fieldPastByte
  else if w.extractLsb' 0 8 ≠ 0#8 then .error .valueNotZero
  else .ok (.getField (w.extractLsb' 16 8) (w.extractLsb' 12 3) (w.extractLsb' 8 4))

/-- Format E with a 2-bit code, for SET_MODE (R60): bits 23:2 are zero. -/
def decodeSetMode (w : Word) : Except DecodeError Instr :=
  if w.extractLsb' 2 22 ≠ 0#22 then .error .mustBeZero
  else match Mode.ofCode (w.extractLsb' 0 2) with
    | some m => .ok (.setMode m)
    | none => .error .illegalCode

/-- Format E with a 3-bit code (R60): bits 23:3 are zero. -/
def decodeE {α : Type} (ofCode : BitVec 3 → Option α) (mk : α → Instr) (w : Word) : Except DecodeError Instr :=
  if w.extractLsb' 3 21 ≠ 0#21 then .error .mustBeZero
  else match ofCode (w.extractLsb' 0 3) with
    | some c => .ok (mk c)
    | none => .error .illegalCode

/-- Format K (R61): bits 23:15 and bit 2 are zero, every field a legal setter code. -/
def decodeK (w : Word) : Except DecodeError Instr :=
  if w.extractLsb' 15 9 ≠ 0#9 ∨ w.extractLsb' 2 1 ≠ 0#1 then .error .mustBeZero
  else match Osrs.ofCode (w.extractLsb' 12 3), Osrs.ofCode (w.extractLsb' 9 3), Standby.ofCode (w.extractLsb' 6 3),
      Filter.ofCode (w.extractLsb' 3 3), Mode.ofCode (w.extractLsb' 0 2) with
    | some op, some ot, some sb, some fl, some md => .ok (.configureAll op ot sb fl md)
    | _, _, _, _, _ => .error .illegalCode

/-- Format A (R62): bits 23:20 are zero, bits 19:0 the raw count. -/
def decodeA (mk : U20 → Instr) (w : Word) : Except DecodeError Instr :=
  if w.extractLsb' 20 4 ≠ 0#4 then .error .mustBeZero else .ok (mk (w.extractLsb' 0 20))

/-- The decoder (R57, R63, R64): total, a word is one command with its fields or is refused by name. -/
def decode (w : Word) : Except DecodeError Instr :=
  match (opcodeOf w).toNat with
  | 0x01 => decodeSetField w
  | 0x02 => decodeGetField w
  | 0x10 => decodeN .init w
  | 0x11 => decodeN .deinit w
  | 0x12 => decodeN .checkId w
  | 0x13 => decodeN .reset w
  | 0x20 => decodeSetMode w
  | 0x21 => decodeE Osrs.ofCode .setOsrsP w
  | 0x22 => decodeE Osrs.ofCode .setOsrsT w
  | 0x23 => decodeE Standby.ofCode .setStandby w
  | 0x24 => decodeE Filter.ofCode .setFilter w
  | 0x25 => decodeK w
  | 0x30 => decodeN .getMode w
  | 0x31 => decodeN .getOsrsP w
  | 0x32 => decodeN .getOsrsT w
  | 0x33 => decodeN .getStandby w
  | 0x34 => decodeN .getFilter w
  | 0x40 => decodeA .compT w
  | 0x41 => decodeA .compP w
  | 0x50 => decodeN .getTemperature w
  | 0x51 => decodeN .getPressure w
  | 0x52 => decodeN .getAll w
  | _ => .error .unassignedOpcode

/-! ### The encoder -/

/-- Format N (R58). -/
def encodeN (op : Byte) : Word := op ++ 0#24

/-- Format E with a 3-bit code (R60). -/
def encodeE (op : Byte) (code : BitVec 3) : Word := op ++ 0#21 ++ code

/-- Format A (R62). -/
def encodeA (op : Byte) (adc : U20) : Word := op ++ 0#4 ++ adc

/-- The word of a command (R58–R63). -/
def encode : Instr → Word
  | .setField reg start width value => 0x01#8 ++ reg ++ 0#1 ++ start ++ width ++ value
  | .getField reg start width => 0x02#8 ++ reg ++ 0#1 ++ start ++ width ++ 0#8
  | .init => encodeN 0x10#8
  | .deinit => encodeN 0x11#8
  | .checkId => encodeN 0x12#8
  | .reset => encodeN 0x13#8
  | .setMode m => 0x20#8 ++ 0#22 ++ m.code
  | .setOsrsP c => encodeE 0x21#8 c.code
  | .setOsrsT c => encodeE 0x22#8 c.code
  | .setStandby c => encodeE 0x23#8 c.code
  | .setFilter c => encodeE 0x24#8 c.code
  | .configureAll op ot sb fl md => 0x25#8 ++ 0#9 ++ op.code ++ ot.code ++ sb.code ++ fl.code ++ 0#1 ++ md.code
  | .getMode => encodeN 0x30#8
  | .getOsrsP => encodeN 0x31#8
  | .getOsrsT => encodeN 0x32#8
  | .getStandby => encodeN 0x33#8
  | .getFilter => encodeN 0x34#8
  | .compT adc => encodeA 0x40#8 adc
  | .compP adc => encodeA 0x41#8 adc
  | .getTemperature => encodeN 0x50#8
  | .getPressure => encodeN 0x51#8
  | .getAll => encodeN 0x52#8

/-- The command the decoder reads from a table row's word. A command is one 32-bit word (R57), so the row's low
`nbits` bits, with zeros above, are the whole of it. -/
def decodeTableWord (nbits w : Nat) : Option Instr :=
  match decode (BitVec.ofNat 32 (w % 2 ^ nbits)) with
  | .ok i => some i
  | .error _ => none

end Sys2Proof
end

