-- ==== Sys2Proof/Config.lean ====
section
/-! DEFINITION. What is fixed for a run (00_scope R7, 20_memory R49) and the values the spec leaves free. A constant
without a body has no value any proof can see: whatever is shown of it holds for every value it could have. -/

namespace Sys2Proof

/-- The six capabilities' presence, `CAP_PRESENT[0..5]` in the order of R29 and R38. -/
structure Caps where
  /-- index 0, `interface_init` -/
  interfaceInit : Bool
  /-- index 1, `interface_deinit` -/
  interfaceDeinit : Bool
  /-- index 2, `delay_ms` -/
  delayMs : Bool
  /-- index 3, `power` -/
  power : Bool
  /-- index 4, `write_array` -/
  writeArray : Bool
  /-- index 5, `read_array` -/
  readArray : Bool
deriving DecidableEq, Repr, Inhabited

/-- `MODE10_DECODE` (R7, R67): what a mode field reading 10 decodes to. -/
inductive Mode10Decode where
  | forced
  | unknown
deriving DecidableEq, Repr, Inhabited

/-- The two sensor assumptions of R49: under `mem`, CTRL_MEAS and CONFIG read back what was written; under `free`,
every read but of 0xD0 and 0x88..0x9F is a draw. -/
inductive EnvModel where
  | mem
  | free
deriving DecidableEq, Repr, Inhabited

/-- What a read of RESET returns: a fresh draw, as R49 says of every address but the ones it names, or the 0x00 that R31
gives from general knowledge. The second is an assumption about the sensor, as ENV-MEM is, and holds with ENV-MEM only
(log 19). -/
inductive ResetRead where
  | draw
  | zero
deriving DecidableEq, Repr, Inhabited

/-- `POLL_PERIOD_MS` (R7, R98): at least 1. A period of 0 has no term, which is how the model refuses it. -/
structure PollPeriod where
  ms : U32
  pos : ms ≠ 0#32
deriving DecidableEq, Repr

/-- The parameters of R7 that are plain data. They are wired by the host before the run and constant over it (R29,
R165). -/
structure Params where
  /-- `HANDLE_PRESENT` -/
  handlePresent : Bool
  /-- `CAP_PRESENT` -/
  capPresent : Caps
  /-- `POLL_CEILING_MS` -/
  pollCeilingMs : U32
  /-- `POLL_PERIOD_MS` -/
  pollPeriod : PollPeriod
  /-- `STARTUP_DELAY_MS` -/
  startupDelayMs : U32
  /-- `BUS_SEL`: an address, or none for SPI and other transports. It is handed to every transport call (R38) and no
  rule computes with it. -/
  busSel : Option Nat
  /-- `MODE10_DECODE` -/
  mode10Decode : Mode10Decode
  /-- which sensor assumption of R49 holds -/
  envModel : EnvModel
  /-- what a read of RESET returns (R49, R31) -/
  resetRead : ResetRead
deriving DecidableEq, Repr

/-- The calibration store's twelve registers (10_state R22): `t1` and `p1` are u16, the others s16. -/
structure Calib where
  t1 : U16
  t2 : S16
  t3 : S16
  p1 : U16
  p2 : S16
  p3 : S16
  p4 : S16
  p5 : S16
  p6 : S16
  p7 : S16
  p8 : S16
  p9 : S16
deriving DecidableEq, Repr, Inhabited

/-- Everything the environment draws at one capability call. Each call takes one answer and uses the parts that
concern it. -/
structure Answer where
  /-- the call returned success (R39) -/
  ok : Bool
  /-- a FAILED write took effect all the same (R49, U15) -/
  took : Bool
  /-- before this read of 0xF4 a Forced conversion has completed (R51) -/
  completed : Bool
  /-- before this read the startup time after a reset has passed (R153) -/
  settled : Bool
  /-- what the call's first address reads as where the spec gives no content (R49) -/
  b0 : Byte
  /-- the same for the second address of a burst -/
  b1 : Byte
  /-- the same for the third address of a burst -/
  b2 : Byte
  /-- the power capability's result (R38, R129) -/
  real : Rat
deriving DecidableEq, Repr, Inhabited

/-- FREE VALUE: the environment's answer number `n`, for every call for which State's list holds none (log 2). -/
opaque Config.freeAnswer : Nat → Answer

/-- OPEN: `HANDLE_PRESENT` (R7). -/
opaque Config.handlePresent : Bool

/-- OPEN: `CAP_PRESENT` (R7). -/
opaque Config.capPresent : Caps

/-- OPEN: `POLL_CEILING_MS` (R7, D11). -/
opaque Config.pollCeilingMs : U32

/-- OPEN: which of the 2^32 - 1 legal poll periods is configured, counted from 0 (R98, D11). -/
opaque Config.pollPeriodChoice : Fin 4294967295

/-- `POLL_PERIOD_MS`: 1 to 2^32 - 1, by `Config.pollPeriodChoice`. -/
def Config.pollPeriod : PollPeriod where
  ms := BitVec.ofNat 32 (Config.pollPeriodChoice.val + 1)
  pos := by
    have h := Config.pollPeriodChoice.isLt
    intro h0
    have h1 := congrArg BitVec.toNat h0
    simp only [BitVec.toNat_ofNat] at h1
    omega

/-- OPEN: `STARTUP_DELAY_MS` (R7, D12). -/
opaque Config.startupDelayMs : U32

/-- OPEN: `BUS_SEL` (R7, D26). -/
opaque Config.busSel : Option Nat

/-- `MODE10_DECODE`: the default R7 names, Forced (D15, log 5). -/
def Config.mode10Decode : Mode10Decode := .forced

/-- OPEN: ENV-MEM or ENV-FREE (R49, log 6). -/
opaque Config.envModel : EnvModel

/-- What a read of RESET returns at the start of a run: R49's draw, which 10_state section 2 makes the behaviour the block
sees (log 19). -/
def Config.resetRead : ResetRead := .draw

/-- OPEN: `ALT_FLOAT`, the floating-point evaluation of the altitude formula around the power result (R7, R129, D28). -/
opaque Config.altFloat : Rat → Rat

/-- OPEN: `CHIP_ID` (R49). -/
opaque Config.chipId : Byte

/-- OPEN: `CAL_NVM`, the byte at 0x88 + i (R49). -/
opaque Config.calNvm : Fin 24 → Byte

/-- OPEN: `CFG_F4_0`, the initial content of CTRL_MEAS (R49, R149). -/
opaque Config.cfgF4Initial : Byte

/-- OPEN: `CFG_F5_0`, the initial content of CONFIG (R49, R149). -/
opaque Config.cfgF5Initial : Byte

/-- FREE VALUE: what CAL_* hold before the first FetchCal; R37 lets a model assume no number (log 9). -/
opaque Config.unwrittenCal : Calib

/-- FREE VALUE: what T_FINE holds before the first CompT; R37 lets a model assume no number (log 9). -/
opaque Config.unwrittenTFine : S32

/-- The parameters of the run that starts at `State.reset`. -/
def Config.params : Params where
  handlePresent := Config.handlePresent
  capPresent := Config.capPresent
  pollCeilingMs := Config.pollCeilingMs
  pollPeriod := Config.pollPeriod
  startupDelayMs := Config.startupDelayMs
  busSel := Config.busSel
  mode10Decode := Config.mode10Decode
  envModel := Config.envModel
  resetRead := Config.resetRead

end Sys2Proof
end

