-- ==== Sys2Proof/Machine/State.lean ====
section
/-! DEFINITION. Everything the spec gives the machine (10_state), the sensor it drives (20_memory section 4), the host's
stream and the trace, as plain data; and the machine right after power-on reset (R37, R148). -/

namespace Sys2Proof.Machine

/-- `LIFECYCLE` (R19). -/
inductive Lifecycle where
  /-- 0 -/
  | uninit
  /-- 1 -/
  | ready
deriving DecidableEq, Repr, Inhabited

/-- `PSTATE` (R27): 00, 01 and 10; 11 is never held. -/
inductive PState where
  /-- 00 -/
  | ready
  /-- 01 -/
  | measuring
  /-- 10 -/
  | timedOut
deriving DecidableEq, Repr, Inhabited

/-- `FAULT_CAUSE` (R139); the numbers are in Machine/Flags.lean. -/
inductive FaultCause where
  /-- no fault since reset -/
  | none
  /-- a command other than INIT with `LIFECYCLE = 0` -/
  | notReady
  /-- COMP_P or GET_PRESSURE with `T_FINE_VALID = 0` -/
  | tfineUnset
  /-- SET_FIELD with `MODE ≠ 00` -/
  | sleepOnlyActive
deriving DecidableEq, Repr, Inhabited

/-- `RSP_CODE` (R132); the numbers are in Machine/Flags.lean. -/
inductive RspCode where
  | ok
  | nullHandle
  | nullDependency
  | interfaceError
  | sensorIdError
  | pollTimeoutError
  | unknownModeOrFilter
  | illegalCommand
  | faulted
deriving DecidableEq, Repr, Inhabited

/-- `RSP_VAL` (R72): its shape depends on the command. -/
inductive RspVal where
  /-- no value -/
  | absent
  /-- GET_FIELD's field, CHECK_ID's ID byte -/
  | byte (b : Byte)
  /-- GET_MODE's code -/
  | mode (code : BitVec 2)
  /-- the other getters' code -/
  | code (code : BitVec 3)
  /-- COMP_T and GET_TEMPERATURE: centi-degrees Celsius, s32 -/
  | temperature (t : S32)
  /-- COMP_P and GET_PRESSURE: pascal, u32 -/
  | pressure (p : U32)
  /-- GET_ALL -/
  | all (t : S32) (p : U32) (alt : Rat)
deriving DecidableEq, Repr, Inhabited

/-- The events of the trace (R15): one per capability call, and the two that bound a command. -/
inductive Event where
  /-- `Cmd(word)`: a word is accepted -/
  | cmd (word : Word)
  /-- `Rsp(code, value)` -/
  | rsp (code : RspCode) (val : RspVal)
  /-- `Rd(reg, n, bytes | fail)`; `none` is fail -/
  | rd (reg : Byte) (n : Nat) (bytes : Option (List Byte))
  /-- `Wr(reg, bytes, ok | fail)` -/
  | wr (reg : Byte) (bytes : List Byte) (ok : Bool)
  /-- `Dly(ms, ok | fail)` -/
  | dly (ms : U32) (ok : Bool)
  /-- `IfI(ok | fail)` -/
  | ifI (ok : Bool)
  /-- `IfD(ok | fail)` -/
  | ifD (ok : Bool)
  /-- `Pow(x, y, r | fail)`; `none` is fail -/
  | pow (x y : Rat) (r : Option Rat)
deriving DecidableEq, Repr, Inhabited

/-- The sensor's register bytes that have a content (R49), by address, addresses strictly rising. -/
abbrev Memory := List Host.Cell

/-- The state. -/
structure State where
  /-- `LIFECYCLE` (R19) -/
  lifecycle : Lifecycle
  /-- `MODE`, the shadow of the sensor's mode (R20) -/
  mode : Mode
  /-- `ADDR_VALID` (R21) -/
  addrValid : Bool
  /-- `CAL_T1..CAL_P9` (R22) -/
  cal : Calib
  /-- `CAL_VALID` (R23) -/
  calValid : Bool
  /-- `T_FINE` (R24) -/
  tFine : S32
  /-- `T_FINE_VALID` (R25) -/
  tFineValid : Bool
  /-- `POLL_BUDGET` (R26) -/
  pollBudget : U32
  /-- `PSTATE` (R27) -/
  pstate : PState
  /-- `FAULT` (R28) -/
  fault : Bool
  /-- `FAULT_CAUSE` (R28) -/
  faultCause : FaultCause
  /-- the parameters of the run (R7, R29): no step changes them -/
  params : Params
  /-- the sensor's register bytes (R49): CAL_NVM, ID, CTRL_MEAS, CONFIG -/
  mem : Memory
  /-- the sensor has taken a reset write and its startup time has not passed (R50, R153) -/
  starting : Bool
  /-- MODEL'S OWN: the environment's answers to the next capability calls, oldest first (log 2) -/
  answers : List Answer
  /-- MODEL'S OWN: how many answers were drawn from `Config.freeAnswer` (log 2) -/
  freeDraws : Nat
  /-- MODEL'S OWN: the words of the host's stream (R17) that are not yet issued, next one first (log 1) -/
  host : List Word
  /-- the trace (R15), oldest event first -/
  trace : List Event
deriving DecidableEq, Repr

/-- The reasons the machine itself could stop. There is none: what the spec calls a fault is the sticky fault state of
R138, whose effect the spec gives in full, so it is a next state here (log 12), and the block has no halt state (R166).
Nobody raises it; that is safe. -/
inductive Fault where
deriving DecidableEq, Repr

/-- The reasons the model could give no meaning. -/
inductive Refusal where
  /-- Raised by an arm of `exec` that has no meaning yet, with the table's mnemonic; no arm does. Safe. -/
  | notModelled (mnemonic : String)
deriving DecidableEq, Repr

/-- The sensor's registers at the start of a run (R49, R149): every byte is a parameter of the environment. -/
def initialMemory : Memory :=
  (List.finRange 24).map (fun i => (0x88 + i.val, Config.calNvm i)) ++
    [(0xD0, Config.chipId), (0xF4, Config.cfgF4Initial), (0xF5, Config.cfgF5Initial)]

/-- Power-on reset (R37, R148), with no word issued yet. -/
def State.reset : State where
  lifecycle := .uninit
  mode := .sleep
  addrValid := false
  cal := Config.unwrittenCal
  calValid := false
  tFine := Config.unwrittenTFine
  tFineValid := false
  pollBudget := Config.params.pollCeilingMs
  pstate := .ready
  fault := false
  faultCause := .none
  params := Config.params
  mem := initialMemory
  starting := false
  answers := []
  freeDraws := 0
  host := []
  trace := []

end Sys2Proof.Machine
end

