-- ==== Sys2Proof/Machine/Flags.lean ====
section
/-! DEFINITION. The block has no condition codes or status flags (10_state R18). What a command reports instead is its
response code and, on a fault, the cause: their numbers (60_exceptions R132, R139), and the numbers of the other coded
registers (10_state R19, R27). -/

namespace Sys2Proof.Machine

/-- The number of a result code, a u8 (R132). -/
def RspCode.number : RspCode → Byte
  | .ok => 0x00#8
  | .nullHandle => 0x01#8
  | .nullDependency => 0x02#8
  | .interfaceError => 0x03#8
  | .sensorIdError => 0x04#8
  | .pollTimeoutError => 0x05#8
  | .unknownModeOrFilter => 0x06#8
  | .illegalCommand => 0x07#8
  | .faulted => 0xFF#8

/-- The 3 bits of `FAULT_CAUSE` (R139). -/
def FaultCause.number : FaultCause → BitVec 3
  | .none => 0b000#3
  | .notReady => 0b001#3
  | .tfineUnset => 0b010#3
  | .sleepOnlyActive => 0b011#3

/-- The bit of `LIFECYCLE` (R19). -/
def Lifecycle.number : Lifecycle → BitVec 1
  | .uninit => 0#1
  | .ready => 1#1

/-- The 2 bits of `PSTATE` (R27). -/
def PState.number : PState → BitVec 2
  | .ready => 0b00#2
  | .measuring => 0b01#2
  | .timedOut => 0b10#2

end Sys2Proof.Machine
end

