-- ==== Sys2Proof/Machine/Ops.lean ====
section
/-! DEFINITION. The named operations every command is built from: the sensor's memory, the environment's draws, the
capability calls (00_scope R11), the response, the sticky fault (60_exceptions R138) and the check order (R135), and
how the next word is taken from the host. -/

namespace Sys2Proof.Machine

/-! ### Memory as a sorted list of cells -/

/-- The byte listed at an address. -/
def Memory.read : Memory → Nat → Option Byte
  | [], _ => none
  | (k, b) :: m, a => if a = k then some b else Memory.read m a

/-- List a byte at an address, keeping the addresses in order. -/
def Memory.write : Memory → Nat → Byte → Memory
  | [], a, v => [(a, v)]
  | (k, b) :: m, a, v =>
    if a < k then (a, v) :: (k, b) :: m
    else if a = k then (a, v) :: m
    else (k, b) :: Memory.write m a v

/-- The addresses whose content is constant over a run (R49): CAL_NVM and ID. -/
def constantAddr (a : Nat) : Bool := (0x88 ≤ a && a ≤ 0x9F) || a == 0xD0

/-- The addresses the sensor keeps a content for (R49): the constant ones, CTRL_MEAS and CONFIG. -/
def storedAddr (a : Nat) : Bool := constantAddr a || a == 0xF4 || a == 0xF5

/-- The canonical form: addresses strictly rising, and none listed that the sensor keeps no content for. An unlisted
address reads as no byte at all, so no entry can equal what an unlisted address reads as. -/
abbrev Memory.wf (m : Memory) : Prop :=
  m.Pairwise (fun c d => c.1 < d.1) ∧ ∀ c ∈ m, storedAddr c.1 = true

/-! ### The sensor (20_memory section 4) -/

/-- What the sensor holds at an address: the model's read of one byte. `none` where no content is given. -/
def State.sensorByte (s : State) (a : Nat) : Option Byte :=
  if storedAddr a then Memory.read s.mem a else none

/-- The sensor now holds `v` at `a`. -/
def State.setSensorByte (s : State) (a : Nat) (v : Byte) : State := { s with mem := Memory.write s.mem a v }

/-- RESET reads as R31's 0x00: that is assumed of the sensor, and ENV-MEM holds (log 19). -/
def State.resetReadsZero (s : State) : Bool := s.params.envModel == .mem && s.params.resetRead == .zero

/-- What a successful read returns for one address (R49), given the free byte drawn for it: the draw itself while the
startup time has not passed (R153), wherever the content is not constant under ENV-FREE, and wherever none is given, RESET
apart where R31's assumption about it is made. -/
def State.seenByte (s : State) (a : Nat) (free : Byte) : Byte :=
  if s.starting then free
  else if s.params.envModel = .free ∧ constantAddr a = false then free
  else if a = 0xE0 ∧ s.resetReadsZero then 0x00#8
  else (s.sensorByte a).getD free

/-- The free byte an answer holds for the i-th address of a burst. -/
def freeByte (a : Answer) : Nat → Byte
  | 0 => a.b0
  | 1 => a.b1
  | _ => a.b2

/-- The bytes a successful read of `n` registers from `reg` returns, in address order (R11, R43). -/
def State.seenBytes (s : State) (a : Answer) (reg : Byte) (n : Nat) : List Byte :=
  (List.range n).map fun i => s.seenByte (reg.toNat + i) (freeByte a i)

/-- CTRL_MEAS holds a Forced mode code, 01 or 10 (R51). -/
def forcedCode (b : Byte) : Bool := b.extractLsb' 0 2 == 0b01#2 || b.extractLsb' 0 2 == 0b10#2

/-- A Forced conversion completes: the sensor's mode field returns to 00 (R51). -/
def State.completeForced (s : State) : State :=
  match s.sensorByte 0xF4 with
  | some b => if forcedCode b then s.setSensorByte 0xF4 (b &&& 0xFC#8) else s
  | none => s

/-- The startup time has passed (R153). -/
def State.settle (s : State) : State := { s with starting := false }

/-- What the environment may do before a read: let the startup time pass (R153), and, before a read of 0xF4, complete a
Forced conversion (R51). -/
def State.beforeRead (s : State) (a : Answer) (reg : Byte) (n : Nat) : State :=
  let s1 := if a.settled then s.settle else s
  if a.completed ∧ reg.toNat ≤ 0xF4 ∧ 0xF4 < reg.toNat + n then s1.completeForced else s1

/-- The sensor's own soft reset (R50): CTRL_MEAS and CONFIG become 0x00, and its startup time begins (it has passed at
once where `STARTUP_DELAY_MS` is 0). -/
def State.sensorReset (s : State) : State :=
  { (s.setSensorByte 0xF4 0x00#8).setSensorByte 0xF5 0x00#8 with starting := s.params.startupDelayMs != 0#32 }

/-- The effect on the sensor of one byte it accepts (R49). -/
def State.acceptByte (s : State) (a : Nat) (v : Byte) : State :=
  if a = 0xF4 ∨ a = 0xF5 then s.setSensorByte a v
  else if a = 0xE0 ∧ v = 0xB6#8 then s.sensorReset
  else s

/-- The effect on the sensor of a write it accepts, byte by byte from `a` upward. -/
def State.acceptBytes (s : State) (a : Nat) : List Byte → State
  | [] => s
  | b :: bs => (s.acceptByte a b).acceptBytes (a + 1) bs

/-! ### Commands as sequences of steps -/

/-- How a command can end before its last step (R13). -/
inductive Stop where
  /-- `raise E` -/
  | raise (code : RspCode)
  /-- `fault F` -/
  | fault (cause : FaultCause)
deriving DecidableEq, Repr

/-- A procedure of the spec: steps on the state in the order written. A stop keeps every step done before it (R12,
R136). -/
abbrev Proc (α : Type) := EStateM Stop State α

/-- Append one event to the trace (R15). -/
def State.log (s : State) (e : Event) : State := { s with trace := s.trace ++ [e] }

/-- One event of the trace. -/
def record (e : Event) : Proc Unit := modify fun s => s.log e

/-- `raise E` (R13). -/
def raise {α : Type} (e : RspCode) : Proc α := throw (.raise e)

/-- `fault F` (R13); its effect on the state is `State.enterFault`. -/
def fault {α : Type} (f : FaultCause) : Proc α := throw (.fault f)

/-- The environment's answer to the next capability call (R39), and the state with that answer used up: the next one of
the state's list, and past the list's end a free value. -/
def State.nextAnswer (s : State) : Answer × State :=
  match s.answers with
  | a :: rest => (a, { s with answers := rest })
  | [] => (Config.freeAnswer s.freeDraws, { s with freeDraws := s.freeDraws + 1 })

/-- Draw the answer of one capability call. -/
def draw : Proc Answer := fun s => .ok s.nextAnswer.1 s.nextAnswer.2

/-! ### The capability calls (R11, R38) -/

/-- `MemRead(reg, n)`: one call of `read_array`; on failure `raise InterfaceError` and no byte is used (R39). -/
def memRead (reg : Byte) (n : Nat) : Proc (List Byte) := do
  let a ← draw
  modify fun s => s.beforeRead a reg n
  if a.ok then
    let s ← get
    record (.rd reg n (some (s.seenBytes a reg n)))
    return s.seenBytes a reg n
  else
    record (.rd reg n none)
    raise .interfaceError

/-- `MemWrite(reg, n, bytes)`: one call of `write_array`; on failure `raise InterfaceError`, and the sensor may have
taken the write all the same (R49, U15). -/
def memWrite (reg : Byte) (bytes : List Byte) : Proc Unit := do
  let a ← draw
  if a.ok || a.took then modify fun s => s.acceptBytes reg.toNat bytes
  record (.wr reg bytes a.ok)
  if a.ok then return () else raise .interfaceError

/-- A wait of `ms` that succeeded: a startup time no longer than it has passed (R153). -/
def State.waited (s : State) (ms : U32) : State :=
  if s.params.startupDelayMs.ule ms then s.settle else s

/-- `Delay(ms)`: one call of `delay_ms`. -/
def delay (ms : U32) : Proc Unit := do
  let a ← draw
  record (.dly ms a.ok)
  if a.ok then modify fun s => s.waited ms else raise .interfaceError

/-- `IfInit()`: one call of `interface_init`. -/
def ifInit : Proc Unit := do
  let a ← draw
  record (.ifI a.ok)
  if a.ok then return () else raise .interfaceError

/-- `IfDeinit()`: one call of `interface_deinit`. -/
def ifDeinit : Proc Unit := do
  let a ← draw
  record (.ifD a.ok)
  if a.ok then return () else raise .interfaceError

/-- `Power(x, y)`: one call of `power`, whose result is a draw (R39, R129). -/
def power (x y : Rat) : Proc Rat := do
  let a ← draw
  if a.ok then
    record (.pow x y (some a.real))
    return a.real
  else
    record (.pow x y none)
    raise .interfaceError

/-! ### The response, the fault, the checks -/

/-- The response ends the command (R14, R72). -/
def State.respond (s : State) (code : RspCode) (val : RspVal) : State := s.log (.rsp code val)

/-- Taking a fault (R13, R138): the sticky fault state is set, the response is FAULTED. There is no return from it but
power-on reset. -/
def State.enterFault (s : State) (cause : FaultCause) : State :=
  { s with fault := true, faultCause := cause }.respond .faulted .absent

/-- How a command's steps end in a response: `return` with OK and the value (R14), `raise E` with E and no value,
`fault F` with the fault state (R13). -/
def conclude : EStateM.Result Stop State RspVal → State
  | .ok v s => s.respond .ok v
  | .error (.raise e) s => s.respond e .absent
  | .error (.fault f) s => s.enterFault f

/-- Every `CAP_PRESENT[i]` is 1 (R135 check 4). -/
def State.capsPresent (s : State) : Bool :=
  s.params.capPresent.interfaceInit && s.params.capPresent.interfaceDeinit && s.params.capPresent.delayMs &&
    s.params.capPresent.power && s.params.capPresent.writeArray && s.params.capPresent.readArray

/-- Checks 1 and 3 to 5 of R135, then the command's own steps (checks 6 and 7). `needsReady` is false for INIT alone.
Check 2 stands where the word is decoded (`takeWord`). -/
def checked (needsReady : Bool) (body : Proc RspVal) (s : State) : State :=
  if s.fault then s.respond .faulted .absent
  else if !s.params.handlePresent then s.respond .nullHandle .absent
  else if !s.capsPresent then s.respond .nullDependency .absent
  else if needsReady && s.lifecycle == .uninit then s.enterFault .notReady
  else conclude (body s)

/-- A command: it always ends in a response, never in a stop of the machine (R137). -/
def runCommand (needsReady : Bool) (body : Proc RspVal) (s : State) : Host.Outcome State Fault Refusal :=
  .next (checked needsReady body s)

/-- Checks 1 and 2 of R135 for a word that does not decode: FAULTED if the fault state is set, else ILLEGAL_COMMAND;
nothing else changes (R64). -/
def State.rejectWord (s : State) : State :=
  if s.fault then s.respond .faulted .absent else s.respond .illegalCommand .absent

/-- The host issues its next word and the block accepts it (R15's `Cmd`). `none` when the host issues none. -/
def State.takeWord (s : State) : Option (Word × State) :=
  match s.host with
  | [] => none
  | w :: rest => some (w, { s with host := rest }.log (.cmd w))

/-- The host's next word is `w`. -/
def State.issue (s : State) (w : Word) : State := { s with host := w :: s.host }

end Sys2Proof.Machine
end

