-- ==== Sys2Proof/Machine/Codec.lean ====
section
/-! DEFINITION. The bit-field codec (40_codec): CodecSet, CodecGet and the two commands that expose them. -/

namespace Sys2Proof.Machine

/-- CodecSet (R75): read the byte, replace the field, write the byte back, even when it is the byte read. -/
def codecSet (reg value : Byte) (start width : Nat) : Proc Unit := do
  let bytes ← memRead reg 1
  memWrite reg [insertField (bytes.getD 0 0) value start width]

/-- CodecGet (R76): read the byte, extract the field. -/
def codecGet (reg : Byte) (start width : Nat) : Proc Byte := do
  let bytes ← memRead reg 1
  return extractField (bytes.getD 0 0) start width

/-- SET_FIELD (R78): only while `MODE` is Sleep, else `fault SLEEP_ONLY_ACTIVE`. -/
def execSetField (reg : Byte) (start : BitVec 3) (width : BitVec 4) (value : Byte) (s : State) :
    Host.Outcome State Fault Refusal :=
  runCommand true (do
    if (← get).mode ≠ .sleep then fault .sleepOnlyActive
    codecSet reg value start.toNat width.toNat
    return .absent) s

/-- GET_FIELD (R79). -/
def execGetField (reg : Byte) (start : BitVec 3) (width : BitVec 4) (s : State) :
    Host.Outcome State Fault Refusal :=
  runCommand true (do
    let f ← codecGet reg start.toNat width.toNat
    return .byte f) s

end Sys2Proof.Machine
end

