-- ==== Sys2Proof/Machine/Compensation.lean ====
section
/-! DEFINITION. The compensation engine (42_compensation): the fixed-point formulas on 32-bit words, where every sum and
product wraps modulo 2^32, `>>a` is `sshiftRight` and `>>l` is `>>>` (00_scope R10), and the two commands COMP_T and
COMP_P. -/

namespace Sys2Proof.Machine

/-! ### Temperature (R86) -/

/-- R86's `x1`. -/
def tempX1 (c : Calib) (adc : U20) : S32 := (adc.setWidth 32).sshiftRight 3 - (c.t1.setWidth 32 <<< 1)

/-- R86's `var1`. -/
def tempVar1 (c : Calib) (adc : U20) : S32 := (tempX1 c adc * c.t2.signExtend 32).sshiftRight 11

/-- R86's `x2`. -/
def tempX2 (c : Calib) (adc : U20) : S32 := (adc.setWidth 32).sshiftRight 4 - c.t1.setWidth 32

/-- R86's `var2`. -/
def tempVar2 (c : Calib) (adc : U20) : S32 :=
  ((tempX2 c adc * tempX2 c adc).sshiftRight 12 * c.t3.signExtend 32).sshiftRight 14

/-- R86's `tf`, the new `T_FINE`. -/
def fineTemperature (c : Calib) (adc : U20) : S32 := tempVar1 c adc + tempVar2 c adc

/-- R86's `T`: centi-degrees from `T_FINE`. -/
def centiDegrees (tf : S32) : S32 := (tf * 5#32 + 128#32).sshiftRight 8

/-- CompT (R86). -/
def compT (adc : U20) : Proc S32 := do
  let c := (← get).cal
  modify fun s => { s with tFine := fineTemperature c adc, tFineValid := true }
  return centiDegrees (fineTemperature c adc)

/-! ### Pressure (R87–R90) -/

/-- R87's first `v1`. -/
def presV1 (tf : S32) : S32 := tf.sshiftRight 1 - 64000#32

/-- R87's `q`. -/
def presQ (tf : S32) : S32 := (presV1 tf).sshiftRight 2 * (presV1 tf).sshiftRight 2

/-- R87's final `v2`. -/
def presV2 (c : Calib) (tf : S32) : S32 :=
  ((presQ tf).sshiftRight 11 * c.p6.signExtend 32 + ((presV1 tf * c.p5.signExtend 32) <<< 1)).sshiftRight 2 +
    (c.p4.signExtend 32 <<< 16)

/-- R87's `v1` before it is scaled by P1. -/
def presScale (c : Calib) (tf : S32) : S32 :=
  ((c.p3.signExtend 32 * (presQ tf).sshiftRight 13).sshiftRight 3 +
    (c.p2.signExtend 32 * presV1 tf).sshiftRight 1).sshiftRight 18

/-- R87's last `v1`, the denominator. -/
def presDenominator (c : Calib) (tf : S32) : S32 :=
  ((32768#32 + presScale c tf) * c.p1.setWidth 32).sshiftRight 15

/-- R89's candidate `c`. -/
def presCandidate (c : Calib) (tf : S32) (adc : U20) : U32 :=
  (1048576#32 - adc.setWidth 32 - (presV2 c tf).sshiftRight 12) * 3125#32

/-- R89's overflow-avoidance division: below 2^31 the candidate is doubled before the division, else after it. -/
def presQuotient (cand den : U32) : U32 :=
  if cand.ult 0x80000000#32 then (cand <<< 1) / den else (cand / den) * 2#32

/-- R90's `w1`. -/
def presW1 (c : Calib) (p : U32) : S32 := (c.p9.signExtend 32 * (((p >>> 3) * (p >>> 3)) >>> 13)).sshiftRight 12

/-- R90's `w2`. -/
def presW2 (c : Calib) (p : U32) : S32 := ((p >>> 2) * c.p8.signExtend 32).sshiftRight 13

/-- R90's final correction. -/
def presCorrected (c : Calib) (p : U32) : U32 :=
  p + (presW1 c p + presW2 c p + c.p7.signExtend 32).sshiftRight 4

/-- The pressure of a raw count (R87–R90): 0 where the denominator is 0 (R88). -/
def compensatedPressure (c : Calib) (tf : S32) (adc : U20) : U32 :=
  if presDenominator c tf = 0#32 then 0#32
  else presCorrected c (presQuotient (presCandidate c tf adc) (presDenominator c tf))

/-- `T_FINE_VALID = 1`, else `fault TFINE_UNSET` (R87). -/
def requireTFine : Proc Unit := do
  if !(← get).tFineValid then fault .tfineUnset

/-- CompP (R87–R90): it writes no register. -/
def compP (adc : U20) : Proc U32 := do
  requireTFine
  let s ← get
  return compensatedPressure s.cal s.tFine adc

/-! ### Commands -/

/-- COMP_T (R93). -/
def execCompT (adc : U20) (s : State) : Host.Outcome State Fault Refusal :=
  runCommand true (do
    let t ← compT adc
    return .temperature t) s

/-- COMP_P (R94). -/
def execCompP (adc : U20) (s : State) : Host.Outcome State Fault Refusal :=
  runCommand true (do
    let p ← compP adc
    return .pressure p) s

end Sys2Proof.Machine
end

