-- ==== Sys2Proof/Machine/Poller.lean ====
section
/-! DEFINITION. The measurement poller (43_poller): Poll and FetchRaw. -/

namespace Sys2Proof.Machine

/-- The loop of Poll (R96). The first argument bounds the iterations; R97 shows that `budget / period + 1` are enough,
so the last case is never reached from `poll`, and it ends as the timeout does. -/
def pollLoop : Nat → Proc Unit
  | 0 => do
    modify fun s => { s with pstate := .timedOut }
    raise .pollTimeoutError
  | n + 1 => do
    let m ← codecGet 0xF3#8 3 1
    let s ← get
    if m = 0#8 then
      set { s with pollBudget := s.params.pollCeilingMs, pstate := .ready }
    else if s.pollBudget.ult s.params.pollPeriod.ms then do
      set { s with pstate := .timedOut }
      raise .pollTimeoutError
    else do
      set { s with pollBudget := s.pollBudget - s.params.pollPeriod.ms }
      delay s.params.pollPeriod.ms
      pollLoop n

/-- How many iterations a budget allows (R97's `k + 1`). -/
def pollIterations (budget period : U32) : Nat := budget.toNat / period.toNat + 1

/-- Poll (R96). -/
def poll : Proc Unit := do
  modify fun s => { s with pstate := .measuring }
  let s ← get
  pollLoop (pollIterations s.pollBudget s.params.pollPeriod.ms)

/-- FetchRaw (R99): the budget is armed, the poll ends Ready, then one burst is read. -/
def fetchRaw (base : Byte) : Proc U20 := do
  modify fun s => { s with pollBudget := s.params.pollCeilingMs }
  poll
  let bytes ← memRead base 3
  return rawCount (bytes.getD 0 0) (bytes.getD 1 0) (bytes.getD 2 0)

end Sys2Proof.Machine
end

