-- ==== Sys2Proof/Machine/Measurement.lean ====
section
/-! DEFINITION. The measurement commands and the altitude stage (45_measurement), and the host's stage behind them, which
no command runs: the hypsometric altitude (R130) and the snapshot (R131). -/

namespace Sys2Proof.Machine

/-- The exponent of the quick altitude, 0.190284 (R129). -/
def quickExponent : Rat := 190284 / 1000000

/-- AltQuick (R129): one power call, then `ALT_FLOAT` of its result. -/
def altQuick (p : U32) : Proc Rat := do
  let r ← power (p.toNat : Rat) quickExponent
  return Config.altFloat r

/-- GET_TEMPERATURE (R126). -/
def execGetTemperature (s : State) : Host.Outcome State Fault Refusal :=
  runCommand true (do
    let adc ← fetchRaw 0xFA#8
    let t ← compT adc
    return .temperature t) s

/-- GET_PRESSURE (R127): `T_FINE_VALID` is checked before any capability call. -/
def execGetPressure (s : State) : Host.Outcome State Fault Refusal :=
  runCommand true (do
    requireTFine
    let adc ← fetchRaw 0xF7#8
    let p ← compP adc
    return .pressure p) s

/-- GET_ALL's first step (R128): in Forced mode the Forced code is written again; `MODE` stays. -/
def retrigger : Proc Unit := do
  if (← get).mode = .forced then codecSet 0xF4#8 (Mode.forced.code.setWidth 8) 0 2

/-- GET_ALL (R128): temperature, then pressure, then the quick altitude. -/
def execGetAll (s : State) : Host.Outcome State Fault Refusal :=
  runCommand true (do
    retrigger
    let adcT ← fetchRaw 0xFA#8
    let t ← compT adcT
    let adcP ← fetchRaw 0xF7#8
    let p ← compP adcP
    let alt ← altQuick p
    return .all t p alt) s

/-! ### The host's stage -/

/-- The Sensor Snapshot the host forms (R131, R72). -/
structure Snapshot where
  tempC : Rat
  pressure : U32
  altitude : Option Rat
deriving DecidableEq, Repr

/-- R131: the snapshot of GET_ALL's response, the temperature divided by 100. -/
def snapshot (t : S32) (p : U32) (alt : Rat) : Snapshot where
  tempC := (t.toInt : Rat) / 100
  pressure := p
  altitude := some alt

/-- The arguments of the host's power call for the hypsometric altitude (R130); none for a pressure of 0, where the
host must not evaluate it (U17). -/
def hypsometricPowerArgs (p : U32) : Option (Rat × Rat) :=
  if p = 0#32 then none else some (101325 / (p.toNat : Rat), 1 / (5257 / 1000))

/-- R130's formula around the power result `r`, in exact arithmetic; no float format is given (R129). -/
def hypsometricAltitude (t : S32) (r : Rat) : Rat :=
  (((t.toInt : Rat) / 100 + 27315 / 100) * (r - 1)) / (65 / 10000)

/-- R129's formula around the power result `r`, in exact arithmetic: what `ALT_FLOAT` approximates. No command uses it. -/
def quickAltitudeExact (r : Rat) : Rat := (4430769396 / 100000) * (1 - (111555816 / 1000000000) * r)

end Sys2Proof.Machine
end

