-- ==== Sys2Proof/Machine/Calibration.lean ====
section
/-! DEFINITION. The calibration store (41_calibration): FetchCal, which INIT runs. -/

namespace Sys2Proof.Machine

/-- One calibration word: a 2-byte read, little-endian (R80, R83). -/
def readCalWord (reg : Byte) : Proc U16 := do
  let bytes ← memRead reg 2
  return wordOfBytes (bytes.getD 0 0) (bytes.getD 1 0)

/-- The twelve reads of R83, at 0x88 + 2i in rising order, in the order of R82. T1 and P1 are the unsigned words, the
others the two's-complement ones (R82). -/
def readCalib : Proc Calib := do
  let t1 ← readCalWord 0x88#8
  let t2 ← readCalWord 0x8A#8
  let t3 ← readCalWord 0x8C#8
  let p1 ← readCalWord 0x8E#8
  let p2 ← readCalWord 0x90#8
  let p3 ← readCalWord 0x92#8
  let p4 ← readCalWord 0x94#8
  let p5 ← readCalWord 0x96#8
  let p6 ← readCalWord 0x98#8
  let p7 ← readCalWord 0x9A#8
  let p8 ← readCalWord 0x9C#8
  let p9 ← readCalWord 0x9E#8
  return { t1, t2, t3, p1, p2, p3, p4, p5, p6, p7, p8, p9 }

/-- FetchCal (R83): `CAL_VALID` is cleared first; the registers are written and it is set only after all twelve reads. -/
def fetchCal : Proc Unit := do
  modify fun s => { s with calValid := false }
  let c ← readCalib
  modify fun s => { s with cal := c, calValid := true }

end Sys2Proof.Machine
end

