-- ==== Sys2Proof/Machine/ModeController.lean ====
section
/-! DEFINITION. The mode controller (44_mode_controller): its procedures, the lifecycle commands, the setters and the
getters. -/

namespace Sys2Proof.Machine

/-! ### Procedures -/

/-- SetModeProc (R104): `MODE` changes only after the write succeeds. -/
def setModeProc (m : Mode) : Proc Unit := do
  codecSet 0xF4#8 (m.code.setWidth 8) 0 2
  modify fun s => { s with mode := m }

/-- SetSleepOnly (R105): capture the mode, force Sleep, apply the field, restore. -/
def setSleepOnly (reg : Byte) (start : Nat) (code : BitVec 3) : Proc Unit := do
  let m := (← get).mode
  setModeProc .sleep
  codecSet reg (code.setWidth 8) start 3
  setModeProc m

/-- SoftReset (R106). -/
def softReset : Proc Unit := do
  memWrite 0xE0#8 [0xB6#8]
  modify fun s => { s with mode := .sleep }

/-- CheckIdProc (R107). -/
def checkIdProc : Proc Byte := do
  let bytes ← memRead 0xD0#8 1
  if bytes.getD 0 0 ≠ 0x58#8 then do
    modify fun s => { s with addrValid := false, lifecycle := .uninit }
    raise .sensorIdError
  else return bytes.getD 0 0

/-- ConfigureAll (R108): the four fields through the sleep-only protocol, then the mode. -/
def configureAllProc (op ot : Osrs) (sb : Standby) (fl : Filter) (md : Mode) : Proc Unit := do
  setSleepOnly 0xF4#8 2 op.code
  setSleepOnly 0xF4#8 5 ot.code
  setSleepOnly 0xF5#8 5 sb.code
  setSleepOnly 0xF5#8 2 fl.code
  setModeProc md

/-! ### Lifecycle commands -/

/-- INIT's steps (R110). -/
def initProc : Proc Unit := do
  modify fun s => { s with lifecycle := .uninit, tFineValid := false }
  ifInit
  modify fun s => { s with addrValid := true }
  let _ ← checkIdProc
  softReset
  delay (← get).params.startupDelayMs
  fetchCal
  configureAllProc .x1 .x1 .ms125 .off .sleep
  modify fun s => { s with pollBudget := s.params.pollCeilingMs, lifecycle := .ready }

/-- INIT (R110): legal from Uninit and from Ready. -/
def execInit (s : State) : Host.Outcome State Fault Refusal :=
  runCommand false (do
    initProc
    return .absent) s

/-- DEINIT (R111). -/
def execDeinit (s : State) : Host.Outcome State Fault Refusal :=
  runCommand true (do
    modify fun s => { s with lifecycle := .uninit }
    softReset
    ifDeinit
    return .absent) s

/-- CHECK_ID (R112). -/
def execCheckId (s : State) : Host.Outcome State Fault Refusal :=
  runCommand true (do
    let id ← checkIdProc
    return .byte id) s

/-- RESET (R113). -/
def execReset (s : State) : Host.Outcome State Fault Refusal :=
  runCommand true (do
    softReset
    return .absent) s

/-! ### Setters -/

/-- SET_MODE (R114): no sleep/restore protocol. -/
def execSetMode (m : Mode) (s : State) : Host.Outcome State Fault Refusal :=
  runCommand true (do
    setModeProc m
    return .absent) s

/-- SET_OSRS_P (R115): CTRL_MEAS[4:2]. -/
def execSetOsrsP (c : Osrs) (s : State) : Host.Outcome State Fault Refusal :=
  runCommand true (do
    setSleepOnly 0xF4#8 2 c.code
    return .absent) s

/-- SET_OSRS_T (R116): CTRL_MEAS[7:5]. -/
def execSetOsrsT (c : Osrs) (s : State) : Host.Outcome State Fault Refusal :=
  runCommand true (do
    setSleepOnly 0xF4#8 5 c.code
    return .absent) s

/-- SET_STANDBY (R117): CONFIG[7:5]. -/
def execSetStandby (c : Standby) (s : State) : Host.Outcome State Fault Refusal :=
  runCommand true (do
    setSleepOnly 0xF5#8 5 c.code
    return .absent) s

/-- SET_FILTER (R118): CONFIG[4:2]. -/
def execSetFilter (c : Filter) (s : State) : Host.Outcome State Fault Refusal :=
  runCommand true (do
    setSleepOnly 0xF5#8 2 c.code
    return .absent) s

/-- CONFIGURE_ALL (R119). -/
def execConfigureAll (op ot : Osrs) (sb : Standby) (fl : Filter) (md : Mode) (s : State) :
    Host.Outcome State Fault Refusal :=
  runCommand true (do
    configureAllProc op ot sb fl md
    return .absent) s

/-! ### Getters (R120) -/

/-- A 3-bit field read back: its code, or UnknownModeOrFilter where `valid` says the code is no enumerant (R120). -/
def readCode (reg : Byte) (start : Nat) (valid : BitVec 3 → Bool) : Proc RspVal := do
  let f ← codecGet reg start 3
  if valid (f.setWidth 3) then return .code (f.setWidth 3) else raise .unknownModeOrFilter

/-- GET_MODE (R121): the field 10 decodes by `MODE10_DECODE`; `MODE` itself is not updated. -/
def execGetMode (s : State) : Host.Outcome State Fault Refusal :=
  runCommand true (do
    let f ← codecGet 0xF4#8 0 2
    if f.setWidth 2 = 0b10#2 then
      match (← get).params.mode10Decode with
      | .forced => return .mode 0b01#2
      | .unknown => raise .unknownModeOrFilter
    else return .mode (f.setWidth 2)) s

/-- GET_OSRS_P (R122). -/
def execGetOsrsP (s : State) : Host.Outcome State Fault Refusal :=
  runCommand true (readCode 0xF4#8 2 fun f => (Osrs.ofCode f).isSome) s

/-- GET_OSRS_T (R123). -/
def execGetOsrsT (s : State) : Host.Outcome State Fault Refusal :=
  runCommand true (readCode 0xF4#8 5 fun f => (Osrs.ofCode f).isSome) s

/-- GET_STANDBY (R124): every code is valid. -/
def execGetStandby (s : State) : Host.Outcome State Fault Refusal :=
  runCommand true (readCode 0xF5#8 5 fun _ => true) s

/-- GET_FILTER (R125). -/
def execGetFilter (s : State) : Host.Outcome State Fault Refusal :=
  runCommand true (readCode 0xF5#8 2 fun f => (Filter.ofCode f).isSome) s

end Sys2Proof.Machine
end

