-- ==== Sys2Proof/Machine/Dispatch.lean ====
section
/-! DEFINITION. One meaning per command. -/

namespace Sys2Proof.Machine

def exec (i : Instr) (s : State) : Host.Outcome State Fault Refusal :=
  match i with
  | .setField reg start width value => Sys2Proof.Machine.execSetField reg start width value s
  | .getField reg start width => Sys2Proof.Machine.execGetField reg start width s
  | .init => Sys2Proof.Machine.execInit s
  | .deinit => Sys2Proof.Machine.execDeinit s
  | .checkId => Sys2Proof.Machine.execCheckId s
  | .reset => Sys2Proof.Machine.execReset s
  | .setMode mode => Sys2Proof.Machine.execSetMode mode s
  | .setOsrsP code => Sys2Proof.Machine.execSetOsrsP code s
  | .setOsrsT code => Sys2Proof.Machine.execSetOsrsT code s
  | .setStandby code => Sys2Proof.Machine.execSetStandby code s
  | .setFilter code => Sys2Proof.Machine.execSetFilter code s
  | .configureAll op ot sb fl md => Sys2Proof.Machine.execConfigureAll op ot sb fl md s
  | .getMode => Sys2Proof.Machine.execGetMode s
  | .getOsrsP => Sys2Proof.Machine.execGetOsrsP s
  | .getOsrsT => Sys2Proof.Machine.execGetOsrsT s
  | .getStandby => Sys2Proof.Machine.execGetStandby s
  | .getFilter => Sys2Proof.Machine.execGetFilter s
  | .compT adc => Sys2Proof.Machine.execCompT adc s
  | .compP adc => Sys2Proof.Machine.execCompP adc s
  | .getTemperature => Sys2Proof.Machine.execGetTemperature s
  | .getPressure => Sys2Proof.Machine.execGetPressure s
  | .getAll => Sys2Proof.Machine.execGetAll s

end Sys2Proof.Machine
end

