-- ==== Sys2Proof/Machine/Step.lean ====
section
/-! DEFINITION. One step is one command (00_scope R5): the host issues its next word, the block decodes it and runs it
to its response. With no word issued the block idles (R148, R166). -/

namespace Sys2Proof.Machine

/-- One step. -/
def step (s : State) : Host.Outcome State Fault Refusal :=
  match s.takeWord with
  | none => .next s
  | some (w, t) =>
    match decode w with
    | .ok i => exec i t
    | .error _ => .next t.rejectWord

/-- `s` with the row's word as the host's next word. -/
def State.withFetchWord (s : State) (nbits w : Nat) : State := s.issue (BitVec.ofNat 32 (w % 2 ^ nbits))

end Sys2Proof.Machine
end

