-- ==== Sys2Proof/Machine/Assembler.lean ====
section
/-! DEFINITION. The assembly syntax of 30_encoding R73, one command per line, and the pseudo-instructions of R74. A line
is a list of characters. -/

namespace Sys2Proof.Machine

/-- One operand as it is written: a number, a number after `#`, or a name. -/
inductive Operand where
  | num (n : Nat)
  | code (n : Nat)
  | name (cs : List Char)
deriving DecidableEq, Repr

/-! ### Text to operands -/

/-- The value of a digit, hexadecimal digits included. -/
def digitValue (c : Char) : Option Nat :=
  if '0'.toNat ≤ c.toNat ∧ c.toNat ≤ '9'.toNat then some (c.toNat - '0'.toNat)
  else if 'a'.toNat ≤ c.toNat ∧ c.toNat ≤ 'f'.toNat then some (c.toNat - 'a'.toNat + 10)
  else if 'A'.toNat ≤ c.toNat ∧ c.toNat ≤ 'F'.toNat then some (c.toNat - 'A'.toNat + 10)
  else none

/-- Digits in a base, after the digits already read as `acc`. -/
def parseDigits (base : Nat) : Nat → List Char → Option Nat
  | acc, [] => some acc
  | acc, c :: cs =>
    match digitValue c with
    | some d => if d < base then parseDigits base (acc * base + d) cs else none
    | none => none

/-- A number, decimal or `0x` hexadecimal. -/
def parseNumber : List Char → Option Nat
  | [] => none
  | ['0', 'x'] => none
  | '0' :: 'x' :: cs => parseDigits 16 0 cs
  | cs => parseDigits 10 0 cs

/-- One operand. -/
def parseOperand (cs : List Char) : Option Operand :=
  match cs with
  | [] => none
  | '#' :: ds => (parseNumber ds).map Operand.code
  | _ => match parseNumber cs with
    | some n => some (.num n)
    | none => some (.name cs)

/-- Cut a list of characters at every `,`. -/
def splitCommas : List Char → List (List Char)
  | [] => [[]]
  | c :: cs =>
    match splitCommas cs with
    | [] => [[c]]
    | w :: ws => if c = ',' then [] :: w :: ws else (c :: w) :: ws

/-- The operands of a line: separated by commas, spaces dropped; none for an empty rest. -/
def parseOperands (cs : List Char) : Option (List Operand) :=
  match cs.filter (· ≠ ' ') with
  | [] => some []
  | ds => (splitCommas ds).mapM parseOperand

/-! ### Operands to enumerants and fields -/

/-- A number below `bound`. -/
def Operand.below (bound : Nat) : Operand → Option Nat
  | .num n => if n < bound then some n else none
  | .code _ => none
  | .name _ => none

/-- A 3-bit code written as `#code`. -/
def threeBits (n : Nat) : Option (BitVec 3) := if n < 8 then some (BitVec.ofNat 3 n) else none

/-- `m ∈ {sleep, forced, normal}` or `#code`. -/
def Operand.mode : Operand → Option Mode
  | .num _ => none
  | .code n => if n < 4 then Mode.ofCode (BitVec.ofNat 2 n) else none
  | .name cs =>
    if cs = "sleep".toList then some .sleep
    else if cs = "forced".toList then some .forced
    else if cs = "normal".toList then some .normal
    else none

/-- `o ∈ {skip, x1, x2, x4, x8, x16}` or `#code`. -/
def Operand.osrs : Operand → Option Osrs
  | .num _ => none
  | .code n => (threeBits n).bind Osrs.ofCode
  | .name cs =>
    if cs = "skip".toList then some .skip
    else if cs = "x1".toList then some .x1
    else if cs = "x2".toList then some .x2
    else if cs = "x4".toList then some .x4
    else if cs = "x8".toList then some .x8
    else if cs = "x16".toList then some .x16
    else none

/-- `s ∈ {0.5ms, 62.5ms, 125ms, 250ms, 500ms, 1000ms, 2000ms, 4000ms}` or `#code`. -/
def Operand.standby : Operand → Option Standby
  | .num _ => none
  | .code n => (threeBits n).bind Standby.ofCode
  | .name cs =>
    if cs = "0.5ms".toList then some .ms0p5
    else if cs = "62.5ms".toList then some .ms62p5
    else if cs = "125ms".toList then some .ms125
    else if cs = "250ms".toList then some .ms250
    else if cs = "500ms".toList then some .ms500
    else if cs = "1000ms".toList then some .ms1000
    else if cs = "2000ms".toList then some .ms2000
    else if cs = "4000ms".toList then some .ms4000
    else none

/-- `f ∈ {off, 2, 4, 8, 16}` or `#code`. -/
def Operand.filter : Operand → Option Filter
  | .num n =>
    if n = 2 then some .c2
    else if n = 4 then some .c4
    else if n = 8 then some .c8
    else if n = 16 then some .c16
    else none
  | .code n => (threeBits n).bind Filter.ofCode
  | .name cs => if cs = "off".toList then some .off else none

/-! ### Commands and pseudo-instructions -/

/-- TRIGGER_FORCED (R74). -/
def triggerForced : Instr := .setMode .forced

/-- READ_MEASURING (R74). -/
def readMeasuring : Instr := .getField 0xF3#8 3#3 1#4

/-- DEFAULT_CONFIG (R71, R74). -/
def defaultConfig : Instr := .configureAll .x1 .x1 .ms125 .off .sleep

/-- SOFT_RESET (R74). -/
def softResetInstr : Instr := .reset

/-- The mnemonics without an operand: the format-N commands (R73) and the pseudo-instructions (R74). -/
def bareMnemonics : List (String × Instr) :=
  [("INIT", .init), ("DEINIT", .deinit), ("CHECK_ID", .checkId), ("RESET", .reset), ("GET_MODE", .getMode),
    ("GET_OSRS_P", .getOsrsP), ("GET_OSRS_T", .getOsrsT), ("GET_STANDBY", .getStandby), ("GET_FILTER", .getFilter),
    ("GET_TEMPERATURE", .getTemperature), ("GET_PRESSURE", .getPressure), ("GET_ALL", .getAll),
    ("TRIGGER_FORCED", triggerForced), ("READ_MEASURING", readMeasuring), ("DEFAULT_CONFIG", defaultConfig),
    ("SOFT_RESET", softResetInstr)]

/-- The command of a mnemonic and its operands, in R73's operand order; none where they make no command. -/
def assemble (mnemonic : List Char) (ops : List Operand) : Option Instr :=
  match ops with
  | [] => (bareMnemonics.find? fun e => decide (mnemonic = e.1.toList)).map (·.2)
  | [a] =>
    if mnemonic = "SET_MODE".toList then a.mode.map .setMode
    else if mnemonic = "SET_OSRS_P".toList then a.osrs.map .setOsrsP
    else if mnemonic = "SET_OSRS_T".toList then a.osrs.map .setOsrsT
    else if mnemonic = "SET_STANDBY".toList then a.standby.map .setStandby
    else if mnemonic = "SET_FILTER".toList then a.filter.map .setFilter
    else if mnemonic = "COMP_T".toList then (a.below 1048576).map fun n => .compT (BitVec.ofNat 20 n)
    else if mnemonic = "COMP_P".toList then (a.below 1048576).map fun n => .compP (BitVec.ofNat 20 n)
    else none
  | [r, st, w] =>
    if mnemonic = "GET_FIELD".toList then
      match r.below 256, st.below 8, w.below 16 with
      | some r, some st, some w => some (.getField (BitVec.ofNat 8 r) (BitVec.ofNat 3 st) (BitVec.ofNat 4 w))
      | _, _, _ => none
    else none
  | [r, v, st, w] =>
    if mnemonic = "SET_FIELD".toList then
      match r.below 256, v.below 256, st.below 8, w.below 16 with
      | some r, some v, some st, some w =>
        some (.setField (BitVec.ofNat 8 r) (BitVec.ofNat 3 st) (BitVec.ofNat 4 w) (BitVec.ofNat 8 v))
      | _, _, _, _ => none
    else none
  | [op, ot, sb, fl, md] =>
    if mnemonic = "CONFIGURE_ALL".toList then
      match op.osrs, ot.osrs, sb.standby, fl.filter, md.mode with
      | some op, some ot, some sb, some fl, some md => some (.configureAll op ot sb fl md)
      | _, _, _, _, _ => none
    else none
  | _ => none

/-- One line of assembly to its one command word (R73, R74); none where the line makes no legal command. -/
def assembleLine (line : List Char) : Option Word :=
  match parseOperands ((line.dropWhile (· = ' ')).dropWhile (· ≠ ' ')) with
  | none => none
  | some ops =>
    match assemble ((line.dropWhile (· = ' ')).takeWhile (· ≠ ' ')) ops with
    | some i => if i.wf then some (encode i) else none
    | none => none

end Sys2Proof.Machine
end

