-- ==== Sys2Proof/Safety.lean ====
section
/-! DEFINITION. What counts as a safe run, and the terms the claims are made in: when a command is served, the invariant,
what each command may answer, what it may cost in calls, and what it may leave changed. -/

namespace Sys2Proof.Machine

/-- A run counts only while the fault state is not set (70_reset_and_hazards R166). -/
abbrev State.clean (s : State) : Prop := s.fault = false

/-- Checks 1, 3 and 4 of R135 pass. -/
abbrev State.serving (s : State) : Prop := s.fault = false ∧ s.params.handlePresent = true ∧ s.capsPresent = true

/-- Checks 1 and 3 to 5 of R135 pass for every command. -/
abbrev State.operational (s : State) : Prop := s.serving ∧ s.lifecycle = .ready

/-- The invariant: the memory is canonical; a Ready instance has a valid address and a valid calibration store (R21,
R23); the fault bit and its cause agree (R28, R139); the poll budget is at most its ceiling (R26). -/
abbrev State.Inv (s : State) : Prop :=
  s.mem.wf ∧ (s.lifecycle = .ready → s.addrValid = true ∧ s.calValid = true) ∧
    (s.fault = true ↔ s.faultCause ≠ .none) ∧ s.pollBudget.toNat ≤ s.params.pollCeilingMs.toNat

/-- Every answer of the list is a success. -/
abbrev allOk (as : List Answer) : Prop := ∀ a ∈ as, a.ok = true

/-- An event of a capability call (R15), as against the two that bound a command. -/
def Event.isCall : Event → Bool
  | .cmd _ => false
  | .rsp _ _ => false
  | .rd _ _ _ => true
  | .wr _ _ _ => true
  | .dly _ _ => true
  | .ifI _ => true
  | .ifD _ => true
  | .pow _ _ _ => true

/-- The event is a capability call that failed (R134). -/
def Event.failed : Event → Bool
  | .cmd _ => false
  | .rsp _ _ => false
  | .rd _ _ bytes => bytes.isNone
  | .wr _ _ ok => !ok
  | .dly _ ok => !ok
  | .ifI ok => !ok
  | .ifD ok => !ok
  | .pow _ _ result => result.isNone

/-- The same capability call, failing. -/
def Event.asFailed : Event → Event
  | .cmd w => .cmd w
  | .rsp c v => .rsp c v
  | .rd reg n _ => .rd reg n none
  | .wr reg bytes _ => .wr reg bytes false
  | .dly ms _ => .dly ms false
  | .ifI _ => .ifI false
  | .ifD _ => .ifD false
  | .pow x y _ => .pow x y none

/-- The events of a procedure that would make the calls `es`, when its call number `j`, counted from 0, fails (R136). -/
def abortedAt (es : List Event) (j : Nat) : List Event := es.take j ++ ((es.drop j).take 1).map Event.asFailed

/-- The codes a command may answer besides OK, FAULTED, ILLEGAL_COMMAND, NULL_HANDLE and NULL_DEPENDENCY (R133). -/
def furtherCodes : Instr → List RspCode
  | .setField _ _ _ _ => [.interfaceError]
  | .getField _ _ _ => [.interfaceError]
  | .init => [.interfaceError, .sensorIdError]
  | .deinit => [.interfaceError]
  | .checkId => [.interfaceError, .sensorIdError]
  | .reset => [.interfaceError]
  | .setMode _ => [.interfaceError]
  | .setOsrsP _ => [.interfaceError]
  | .setOsrsT _ => [.interfaceError]
  | .setStandby _ => [.interfaceError]
  | .setFilter _ => [.interfaceError]
  | .configureAll _ _ _ _ _ => [.interfaceError]
  | .getMode => [.interfaceError, .unknownModeOrFilter]
  | .getOsrsP => [.interfaceError, .unknownModeOrFilter]
  | .getOsrsT => [.interfaceError, .unknownModeOrFilter]
  | .getStandby => [.interfaceError]
  | .getFilter => [.interfaceError, .unknownModeOrFilter]
  | .compT _ => []
  | .compP _ => []
  | .getTemperature => [.interfaceError, .pollTimeoutError]
  | .getPressure => [.interfaceError, .pollTimeoutError]
  | .getAll => [.interfaceError, .pollTimeoutError]

/-- The codes any word can answer (R133). -/
def commonCodes : List RspCode := [.ok, .faulted, .illegalCommand, .nullHandle, .nullDependency]

/-- The faults a command can take (R133). -/
def takesFaults : Instr → List FaultCause
  | .setField _ _ _ _ => [.notReady, .sleepOnlyActive]
  | .getField _ _ _ => [.notReady]
  | .init => []
  | .deinit => [.notReady]
  | .checkId => [.notReady]
  | .reset => [.notReady]
  | .setMode _ => [.notReady]
  | .setOsrsP _ => [.notReady]
  | .setOsrsT _ => [.notReady]
  | .setStandby _ => [.notReady]
  | .setFilter _ => [.notReady]
  | .configureAll _ _ _ _ _ => [.notReady]
  | .getMode => [.notReady]
  | .getOsrsP => [.notReady]
  | .getOsrsT => [.notReady]
  | .getStandby => [.notReady]
  | .getFilter => [.notReady]
  | .compT _ => [.notReady]
  | .compP _ => [.notReady, .tfineUnset]
  | .getTemperature => [.notReady]
  | .getPressure => [.notReady, .tfineUnset]
  | .getAll => [.notReady]

/-- The shape of `RSP_VAL` with code OK, by command (R72); CHECK_ID's byte is always 0x58 and GET_MODE's code is never
10. -/
def okValue : Instr → RspVal → Prop
  | .getField _ _ _, v => ∃ b, v = .byte b
  | .checkId, v => v = .byte 0x58#8
  | .getMode, v => ∃ c, v = .mode c ∧ c ≠ 0b10#2
  | .getOsrsP, v => ∃ c : Osrs, v = .code c.code
  | .getOsrsT, v => ∃ c : Osrs, v = .code c.code
  | .getStandby, v => ∃ c : Standby, v = .code c.code
  | .getFilter, v => ∃ c : Filter, v = .code c.code
  | .compT _, v => ∃ t, v = .temperature t
  | .getTemperature, v => ∃ t, v = .temperature t
  | .compP _, v => ∃ p, v = .pressure p
  | .getPressure, v => ∃ p, v = .pressure p
  | .getAll, v => ∃ t p alt, v = .all t p alt
  | .setField _ _ _ _, v => v = .absent
  | .init, v => v = .absent
  | .deinit, v => v = .absent
  | .reset, v => v = .absent
  | .setMode _, v => v = .absent
  | .setOsrsP _, v => v = .absent
  | .setOsrsT _, v => v = .absent
  | .setStandby _, v => v = .absent
  | .setFilter _, v => v = .absent
  | .configureAll _ _ _ _ _, v => v = .absent

/-- R97's `k` for a fetch: how many whole periods the ceiling holds. -/
def waitsPerPoll (p : Params) : Nat := p.pollCeilingMs.toNat / p.pollPeriod.ms.toNat

/-- The most capability calls a command makes (R164, and the procedures' own counts). -/
def callBound (p : Params) : Instr → Nat
  | .setField _ _ _ _ => 2
  | .getField _ _ _ => 1
  | .init => 42
  | .deinit => 2
  | .checkId => 1
  | .reset => 1
  | .setMode _ => 2
  | .setOsrsP _ => 6
  | .setOsrsT _ => 6
  | .setStandby _ => 6
  | .setFilter _ => 6
  | .configureAll _ _ _ _ _ => 26
  | .getMode => 1
  | .getOsrsP => 1
  | .getOsrsT => 1
  | .getStandby => 1
  | .getFilter => 1
  | .compT _ => 0
  | .compP _ => 0
  | .getTemperature => 2 * waitsPerPoll p + 2
  | .getPressure => 2 * waitsPerPoll p + 2
  | .getAll => 4 * waitsPerPoll p + 7

/-- `t` is `s` but for what capability calls and the response touch: the sensor, the environment's answers, the trace.
Every block register, the parameters and the host's stream are the same. -/
def sameBlock (s t : State) : Prop :=
  t = { s with
    mem := t.mem, starting := t.starting, answers := t.answers, freeDraws := t.freeDraws, trace := t.trace }

/-- Every byte the sensor holds outside the listed addresses is the same. -/
def sameSensorBut (addrs : List Nat) (s t : State) : Prop := ∀ a, a ∉ addrs → t.sensorByte a = s.sensorByte a

/-- CTRL_MEAS is the same, or a Forced conversion completed in it: the mode field went from a Forced code to 00 (R51). -/
def sameOrReturned (s t : State) : Prop :=
  t.sensorByte 0xF4 = s.sensorByte 0xF4 ∨
    ∃ b, s.sensorByte 0xF4 = some b ∧ forcedCode b = true ∧ t.sensorByte 0xF4 = some (b &&& 0xFC#8)

/-- The calibration coefficient words as FetchCal decodes the 24 bytes of the NVM (R82, R83): the i-th byte stands at
0x88 + i. -/
def calibOfNvm (b : Fin 24 → Byte) : Calib where
  t1 := wordOfBytes (b 0) (b 1)
  t2 := wordOfBytes (b 2) (b 3)
  t3 := wordOfBytes (b 4) (b 5)
  p1 := wordOfBytes (b 6) (b 7)
  p2 := wordOfBytes (b 8) (b 9)
  p3 := wordOfBytes (b 10) (b 11)
  p4 := wordOfBytes (b 12) (b 13)
  p5 := wordOfBytes (b 14) (b 15)
  p6 := wordOfBytes (b 16) (b 17)
  p7 := wordOfBytes (b 18) (b 19)
  p8 := wordOfBytes (b 20) (b 21)
  p9 := wordOfBytes (b 22) (b 23)

/-- The events of one codec write that succeeds on reading `b` (R75). -/
def codecSetEvents (reg b value : Byte) (start width : Nat) : List Event :=
  [.rd reg 1 (some [b]), .wr reg [insertField b value start width] true]

/-- The six events of SetSleepOnly when every call succeeds, as R105 writes them, for the bytes its three reads
return and the captured mode `m`. -/
def sleepOnlyEvents (m : Mode) (reg : Byte) (start : Nat) (code : BitVec 3) (b0 b1 b2 : Byte) : List Event :=
  [.rd 0xF4#8 1 (some [b0]), .wr 0xF4#8 [b0 &&& 0xFC#8] true,
    .rd reg 1 (some [b1]), .wr reg [insertField b1 (code.setWidth 8) start 3] true,
    .rd 0xF4#8 1 (some [b2]), .wr 0xF4#8 [(b2 &&& 0xFC#8) ||| m.code.setWidth 8] true]

/-- The 26 events of ConfigureAll when every call succeeds, as R108 writes them, for the bytes its thirteen reads return
and the mode `m` it captures: the four fields through the sleep-only protocol, then the mode. -/
def configureEvents (m : Mode) (op ot : Osrs) (sb : Standby) (fl : Filter) (md : Mode) (b : Fin 13 → Byte) :
    List Event :=
  sleepOnlyEvents m 0xF4#8 2 op.code (b 0) (b 1) (b 2) ++ sleepOnlyEvents m 0xF4#8 5 ot.code (b 3) (b 4) (b 5) ++
    sleepOnlyEvents m 0xF5#8 5 sb.code (b 6) (b 7) (b 8) ++ sleepOnlyEvents m 0xF5#8 2 fl.code (b 9) (b 10) (b 11) ++
    [.rd 0xF4#8 1 (some [b 12]), .wr 0xF4#8 [(b 12 &&& 0xFC#8) ||| md.code.setWidth 8] true]

/-- The twelve reads of FetchCal when every call succeeds and the bytes are `b` (R83). -/
def calibrationEvents (b : Fin 24 → Byte) : List Event :=
  (List.range 12).map fun i => .rd (BitVec.ofNat 8 (0x88 + 2 * i)) 2
    (some [b (Fin.ofNat 24 (2 * i)), b (Fin.ofNat 24 (2 * i + 1))])

/-- GET_ALL's first two events in the mode `m` (R128): in Forced mode the Forced code is written again, on reading `b`. -/
def retriggerEvents (m : Mode) (b : Byte) : List Event :=
  if m = .forced then [.rd 0xF4#8 1 (some [b]), .wr 0xF4#8 [(b &&& 0xFC#8) ||| 0x01#8] true] else []

/-- The four setters that go through the sleep-only protocol, with the field each writes (R115–R118, R66). -/
def SleepOnlySetter (i : Instr) (reg : Byte) (start : Nat) (code : BitVec 3) : Prop :=
  (∃ c, i = .setOsrsP c ∧ reg = 0xF4#8 ∧ start = 2 ∧ code = c.code) ∨
  (∃ c, i = .setOsrsT c ∧ reg = 0xF4#8 ∧ start = 5 ∧ code = c.code) ∨
  (∃ c, i = .setStandby c ∧ reg = 0xF5#8 ∧ start = 5 ∧ code = c.code) ∨
  (∃ c, i = .setFilter c ∧ reg = 0xF5#8 ∧ start = 2 ∧ code = c.code)

/-- STATUS reads with its measuring bit set, bit 3 (R66). -/
abbrev busy (a : Answer) : Prop := a.b0.getLsbD 3 = true

/-- The answers of poll iterations that read the bit set and then wait: per iteration the read's and the delay's. -/
def waitAnswers (waits : List (Answer × Answer)) : List Answer := waits.flatMap fun p => [p.1, p.2]

/-- Every one of these iterations succeeds in both calls and reads the bit set. -/
abbrev waitsBusy (waits : List (Answer × Answer)) : Prop := ∀ p ∈ waits, p.1.ok = true ∧ p.2.ok = true ∧ busy p.1

/-- The events of those iterations (R99). -/
def waitEvents (period : U32) (waits : List (Answer × Answer)) : List Event :=
  waits.flatMap fun p => [.rd 0xF3#8 1 (some [p.1.b0]), .dly period true]

/-- The 20-bit count in the three bytes an answer holds. -/
def burstCount (a : Answer) : U20 := rawCount a.b0 a.b1 a.b2

/-- Two's-complement reduction of an exact result to 32 bits (R10). -/
def wrap (x : Int) : Int := Int.bmod x 4294967296

end Sys2Proof.Machine
end

