-- ==== Sys2Proof/Certificates/Slice0/Obligations.lean ====
section
/-! DEFINITION. The statements about the model, from the spec's rules. -/

open Sys2Proof Sys2Proof.Machine

/-! ## Encoding -/

/-- 30_encoding section 1: decoding the word of any legal command gives that command back, whatever its operands. -/
def Obligations.DecodeOfEncode : Prop := ∀ i : Instr, i.wf = true → decode (encode i) = .ok i

/-- 30_encoding sections 1 and 2: every command has one word only; a word that decodes is the word of the command it
decodes to, and that command is legal. -/
def Obligations.EncodeOfDecode : Prop := ∀ (w : Word) (i : Instr), decode w = .ok i → i.wf = true ∧ encode i = w

/-- Words of 95_test_vectors section 2.1, one or more for every format and some illegal neighbours. -/
def Obligations.SpecWordsDecode : Prop :=
  decode 0x01F52304#32 = .ok (.setField 0xF5#8 2#3 3#4 4#8) ∧
  decode 0x02F45300#32 = .ok (.getField 0xF4#8 5#3 3#4) ∧
  decode 0x10000000#32 = .ok .init ∧
  decode 0x20000003#32 = .ok (.setMode .normal) ∧
  decode 0x21000005#32 = .ok (.setOsrsP .x16) ∧
  decode 0x23000007#32 = .ok (.setStandby .ms4000) ∧
  decode 0x24000004#32 = .ok (.setFilter .c16) ∧
  decode 0x25005BE3#32 = .ok (.configureAll .x16 .x16 .ms4000 .c16 .normal) ∧
  decode 0x4007EED0#32 = .ok (.compT 519888#20) ∧
  decode 0x410655AC#32 = .ok (.compP 415148#20) ∧
  decode 0x52000000#32 = .ok .getAll ∧
  decode 0x10000001#32 = .error .mustBeZero ∧
  decode 0x20000002#32 = .error .illegalCode ∧
  decode 0x01F32304#32 = .error .setFieldTarget ∧
  decode 0x01F53604#32 = .error .fieldPastByte ∧
  decode 0x02F45301#32 = .error .valueNotZero ∧
  decode 0x53000000#32 = .error .unassignedOpcode

/-- R74: each pseudo-instruction is one command word, the word of its expansion. -/
def Obligations.PseudoInstructionWords : Prop :=
  assembleLine "TRIGGER_FORCED".toList = some 0x20000001#32 ∧
  assembleLine "SET_MODE forced".toList = some 0x20000001#32 ∧
  assembleLine "READ_MEASURING".toList = some 0x02F33100#32 ∧
  assembleLine "GET_FIELD 0xF3, 3, 1".toList = some 0x02F33100#32 ∧
  assembleLine "DEFAULT_CONFIG".toList = some 0x25001280#32 ∧
  assembleLine "CONFIGURE_ALL x1, x1, 125ms, off, sleep".toList = some 0x25001280#32 ∧
  assembleLine "SOFT_RESET".toList = some 0x13000000#32 ∧
  assembleLine "RESET".toList = some 0x13000000#32

/-- 30_encoding section 4: the code of every enumerant; a setter code stands for the enumerant that has it, and the
illegal codes for none. -/
def Obligations.EnumerantCodes : Prop :=
  (∀ c m, Mode.ofCode c = some m ↔ m.code = c) ∧ (∀ c, Mode.ofCode c = none ↔ c = 0b10#2) ∧
  (∀ c o, Osrs.ofCode c = some o ↔ o.code = c) ∧ (∀ c, Osrs.ofCode c = none ↔ c = 0b110#3 ∨ c = 0b111#3) ∧
  (∀ c t, Standby.ofCode c = some t ↔ t.code = c) ∧ (∀ c, Standby.ofCode c ≠ none) ∧
  (∀ c f, Filter.ofCode c = some f ↔ f.code = c) ∧
  (∀ c, Filter.ofCode c = none ↔ c = 0b101#3 ∨ c = 0b110#3 ∨ c = 0b111#3) ∧
  [Mode.sleep, .forced, .normal].map Mode.code = [0b00#2, 0b01#2, 0b11#2] ∧
  [Osrs.skip, .x1, .x2, .x4, .x8, .x16].map Osrs.code = [0b000#3, 0b001#3, 0b010#3, 0b011#3, 0b100#3, 0b101#3] ∧
  [Standby.ms0p5, .ms62p5, .ms125, .ms250, .ms500, .ms1000, .ms2000, .ms4000].map Standby.code =
    [0b000#3, 0b001#3, 0b010#3, 0b011#3, 0b100#3, 0b101#3, 0b110#3, 0b111#3] ∧
  [Filter.off, .c2, .c4, .c8, .c16].map Filter.code = [0b000#3, 0b001#3, 0b010#3, 0b011#3, 0b100#3]

/-! ## The step, the checks and the fault state -/

/-- 00_scope section 2, 30_encoding section 1: a step whose next word decodes runs that command, in the state with the
word taken from the host's stream and its `Cmd` event in the trace. That the stream stands in State is the model's choice
(log 1). -/
def Obligations.StepRunsDecodedInstruction : Prop :=
  ∀ (s : State) (w : Word) (rest : List Word) (i : Instr), s.host = w :: rest → decode w = .ok i → i.wf = true →
    step s = exec i { s with host := rest, trace := s.trace ++ [.cmd w] }

/-- 30_encoding section 2: an illegal word answers ILLEGAL_COMMAND and changes no state. With no word issued the step
changes nothing at all (the model's choice, log 1). -/
def Obligations.StepWithoutCommand : Prop :=
  (∀ (s : State) (w : Word) (rest : List Word) (e : DecodeError), s.host = w :: rest → decode w = .error e →
    s.fault = false →
    step s = .next { s with host := rest, trace := s.trace ++ [.cmd w, .rsp .illegalCommand .absent] }) ∧
  (∀ s : State, s.host = [] → step s = .next s)

/-- R138: what `fault F` does to the state; while FAULT = 1 every word answers FAULTED and nothing else changes; no step
clears the fault state; power-on reset has none. -/
def Obligations.FaultStateSticky : Prop :=
  (∀ (s : State) (f : FaultCause), conclude (.error (.fault f) s) =
    { s with fault := true, faultCause := f, trace := s.trace ++ [.rsp .faulted .absent] }) ∧
  (∀ (s : State) (w : Word) (rest : List Word), s.host = w :: rest → s.fault = true →
    step s = .next { s with host := rest, trace := s.trace ++ [.cmd w, .rsp .faulted .absent] }) ∧
  (∀ s t : State, step s = .next t → s.fault = true → t.fault = true ∧ t.faultCause = s.faultCause) ∧
  State.reset.fault = false ∧ State.reset.faultCause = .none

/-- 60_exceptions section 2: the checks every command passes through, in order, each deciding the whole outcome. -/
def Obligations.CheckOrder : Prop :=
  ∀ (i : Instr) (s : State),
    (s.fault = true → exec i s = .next { s with trace := s.trace ++ [.rsp .faulted .absent] }) ∧
    (s.fault = false → s.params.handlePresent = false →
      exec i s = .next { s with trace := s.trace ++ [.rsp .nullHandle .absent] }) ∧
    (s.fault = false → s.params.handlePresent = true → s.capsPresent = false →
      exec i s = .next { s with trace := s.trace ++ [.rsp .nullDependency .absent] }) ∧
    (s.serving → s.lifecycle = .uninit → i ≠ .init →
      exec i s = .next { s with
        fault := true, faultCause := .notReady, trace := s.trace ++ [.rsp .faulted .absent] })

/-- 60_exceptions section 2, check 6: SET_FIELD outside Sleep faults SLEEP_ONLY_ACTIVE; COMP_P and GET_PRESSURE without a
temperature fault TFINE_UNSET; none of them makes a capability call. -/
def Obligations.OwnPreconditionFaults : Prop :=
  (∀ (s : State) reg start width value, s.operational → s.mode ≠ .sleep →
    exec (.setField reg start width value) s = .next { s with
      fault := true, faultCause := .sleepOnlyActive, trace := s.trace ++ [.rsp .faulted .absent] }) ∧
  (∀ (s : State) (i : Instr), (i = .getPressure ∨ ∃ adc, i = .compP adc) → s.operational → s.tFineValid = false →
    exec i s = .next { s with
      fault := true, faultCause := .tfineUnset, trace := s.trace ++ [.rsp .faulted .absent] })

/-- The invariant: canonical memory; Ready implies a valid address and calibration store (10_state section 1, R21 and
R23); fault bit and cause agree; the poll budget is at most the ceiling. Every step keeps it. -/
def Obligations.InvariantKept : Prop := ∀ s t : State, s.Inv → step s = .next t → t.Inv

/-- 10_state section 3: power-on reset leaves the values the spec gives, and the invariant holds there. -/
def Obligations.ResetState : Prop :=
  State.reset.lifecycle = .uninit ∧ State.reset.mode = .sleep ∧ State.reset.addrValid = false ∧
  State.reset.calValid = false ∧ State.reset.tFineValid = false ∧
  State.reset.pollBudget = State.reset.params.pollCeilingMs ∧ State.reset.pstate = .ready ∧
  State.reset.fault = false ∧ State.reset.faultCause = .none ∧ State.reset.trace = [] ∧ State.reset.Inv

/-- 10_state section 1, 70_reset_and_hazards section 5: the wiring and the parameters are constant over a run. -/
def Obligations.ParametersConstant : Prop := ∀ s t : State, step s = .next t → t.params = s.params

/-- 00_scope sections 2 and 4, 60_exceptions sections 1 and 3, 70_reset_and_hazards section 4: a command appends its
capability calls and then exactly one response; it makes at most so many calls; every call but the last succeeded, so no
call follows one that failed; and the response is INTERFACE_ERROR exactly when the last call failed. -/
def Obligations.OneResponsePerCommand : Prop :=
  ∀ (i : Instr) (s t : State), exec i s = .next t →
    ∃ (calls : List Event) (c : RspCode) (v : RspVal), t.trace = s.trace ++ calls ++ [.rsp c v] ∧
      (∀ e ∈ calls, e.isCall = true) ∧ calls.length ≤ callBound s.params i ∧
      (∀ e ∈ calls.dropLast, e.failed = false) ∧
      (c = .interfaceError ↔ ∃ e, calls.getLast? = some e ∧ e.failed = true)

/-- 60_exceptions section 1: a command answers only the codes of its row, and takes only the faults of its row. -/
def Obligations.ResponseCodesOfCommand : Prop :=
  ∀ (i : Instr) (s t : State), exec i s = .next t →
    ∃ (c : RspCode) (v : RspVal), t.trace.getLast? = some (.rsp c v) ∧ c ≠ .illegalCommand ∧
      (c ∈ commonCodes ∨ c ∈ furtherCodes i) ∧
      (s.fault = false → t.fault = true → c = .faulted ∧ t.faultCause ∈ takesFaults i)

/-- 30_encoding section 5: a response other than OK carries no value, and an OK response carries one of the command's
shape. -/
def Obligations.ResponseValueShape : Prop :=
  ∀ (i : Instr) (s t : State), exec i s = .next t →
    ∃ (c : RspCode) (v : RspVal), t.trace.getLast? = some (.rsp c v) ∧ (c ≠ .ok → v = .absent) ∧
      (c = .ok → okValue i v)

/-- 10_state section 1: each register is written only by the commands the spec names for it. -/
def Obligations.RegisterWriters : Prop :=
  ∀ (i : Instr) (s t : State), exec i s = .next t →
    (t.cal = s.cal ∧ t.calValid = s.calValid ∨ i = .init) ∧
    (t.tFine = s.tFine ∨ (∃ adc, i = .compT adc) ∨ i = .getTemperature ∨ i = .getAll) ∧
    (t.tFineValid = s.tFineValid ∨ (∃ adc, i = .compT adc) ∨ i = .getTemperature ∨ i = .getAll ∨ i = .init) ∧
    (t.lifecycle = s.lifecycle ∨ i = .init ∨ i = .deinit ∨ i = .checkId) ∧
    (t.addrValid = s.addrValid ∨ i = .init ∨ i = .checkId) ∧
    (t.pollBudget = s.pollBudget ∨ i = .init ∨ i = .getTemperature ∨ i = .getPressure ∨ i = .getAll) ∧
    (t.pstate = s.pstate ∨ i = .getTemperature ∨ i = .getPressure ∨ i = .getAll) ∧
    (t.mode = s.mode ∨ i = .init ∨ i = .deinit ∨ i = .reset ∨ (∃ m, i = .setMode m) ∨ (∃ c, i = .setOsrsP c) ∨
      (∃ c, i = .setOsrsT c) ∨ (∃ c, i = .setStandby c) ∨ (∃ c, i = .setFilter c) ∨
      ∃ op ot sb fl md, i = .configureAll op ot sb fl md)

/-- 20_memory section 4: no step changes a byte the sensor holds but CTRL_MEAS and CONFIG; the chip ID and the
calibration NVM are constant. -/
def Obligations.SensorConstants : Prop := ∀ s t : State, step s = .next t → sameSensorBut [0xF4, 0xF5] s t

/-- 10_state section 1 (PSTATE): no command's outcome depends on the poller's state. -/
def Obligations.PollerStateUnseen : Prop :=
  ∀ (i : Instr) (s t : State) (p : PState), exec i s = .next t →
    ∃ u, exec i { s with pstate := p } = .next u ∧ { u with pstate := t.pstate } = t

/-- 10_state sections 1 and 3: what CAL_* hold while the instance is Uninit, and what T_FINE holds while T_FINE_VALID is
0, reaches no response, no call and no other register. -/
def Obligations.UnwrittenRegistersUnseen : Prop :=
  (∀ (i : Instr) (s t : State) (c : Calib), s.lifecycle = .uninit → exec i s = .next t →
    ∃ u, exec i { s with cal := c } = .next u ∧ { u with cal := t.cal } = t) ∧
  (∀ (i : Instr) (s t : State) (v : S32), s.tFineValid = false → exec i s = .next t →
    ∃ u, exec i { s with tFine := v } = .next u ∧ { u with tFine := t.tFine } = t)

/-! ## Capability calls and the sensor -/

/-- 20_memory section 1: a failed call raises InterfaceError after its one event, and changes no block register. A failed
write has taken effect on the sensor or not, as drawn. -/
def Obligations.CapabilityFailure : Prop :=
  ∀ (s : State) (a : Answer) (rest : List Answer), s.answers = a :: rest → a.ok = false →
    (∀ reg n, ∃ t, memRead reg n s = .error (.raise .interfaceError) t ∧ sameBlock s t ∧
      t.trace = s.trace ++ [.rd reg n none]) ∧
    (∀ reg bs, ∃ t, memWrite reg bs s = .error (.raise .interfaceError) t ∧ sameBlock s t ∧
      t.trace = s.trace ++ [.wr reg bs false] ∧
      t.mem = (if a.took then ({ s with answers := rest }.acceptBytes reg.toNat bs).mem else s.mem)) ∧
    (∀ ms, delay ms s =
      .error (.raise .interfaceError) { s with answers := rest, trace := s.trace ++ [.dly ms false] }) ∧
    ifInit s = .error (.raise .interfaceError) { s with answers := rest, trace := s.trace ++ [.ifI false] } ∧
    ifDeinit s = .error (.raise .interfaceError) { s with answers := rest, trace := s.trace ++ [.ifD false] } ∧
    (∀ x y, power x y s =
      .error (.raise .interfaceError) { s with answers := rest, trace := s.trace ++ [.pow x y none] })

/-- 20_memory section 4: the effect of a byte the sensor accepts. CTRL_MEAS and CONFIG store it; the reset byte at 0xE0
clears both and leaves every other byte; anything else has no effect. -/
def Obligations.SensorWriteEffects : Prop :=
  ∀ (s : State) (reg v : Byte),
    (reg = 0xF4#8 ∨ reg = 0xF5#8 →
      (s.acceptBytes reg.toNat [v]).sensorByte reg.toNat = some v ∧
        sameSensorBut [reg.toNat] s (s.acceptBytes reg.toNat [v])) ∧
    (reg = 0xE0#8 → v = 0xB6#8 →
      (s.acceptBytes reg.toNat [v]).sensorByte 0xF4 = some 0x00#8 ∧
        (s.acceptBytes reg.toNat [v]).sensorByte 0xF5 = some 0x00#8 ∧
        sameSensorBut [0xF4, 0xF5] s (s.acceptBytes reg.toNat [v])) ∧
    (reg ≠ 0xF4#8 → reg ≠ 0xF5#8 → ¬(reg = 0xE0#8 ∧ v = 0xB6#8) → s.acceptBytes reg.toNat [v] = s)

/-- 20_memory section 4: what a successful read of one register returns when the startup time has passed. The NVM and the
ID read as held; under ENV-MEM so do CTRL_MEAS, after a Forced return, and CONFIG; under ENV-FREE every other address
reads as drawn; and an address without a content always does, but RESET where 10_state section 2's value is assumed of the
sensor (log 19): there it reads as 0x00 under ENV-MEM. -/
def Obligations.SensorReadValues : Prop :=
  ∀ (s : State) (a : Answer) (rest : List Answer) (reg : Byte), s.answers = a :: rest → a.ok = true →
    s.starting = false →
    ∃ b t, memRead reg 1 s = .ok [b] t ∧ sameBlock s t ∧ t.trace = s.trace ++ [.rd reg 1 (some [b])] ∧
      (constantAddr reg.toNat = true → ∀ x, s.sensorByte reg.toNat = some x → b = x) ∧
      (reg = 0xE0#8 → s.params.envModel = .mem → s.params.resetRead = .zero → b = 0x00#8) ∧
      (reg = 0xF5#8 → s.params.envModel = .mem → ∀ x, s.sensorByte 0xF5 = some x → b = x) ∧
      (reg = 0xF4#8 → s.params.envModel = .mem → ∀ x, s.sensorByte 0xF4 = some x →
        b = if a.completed && forcedCode x then x &&& 0xFC#8 else x) ∧
      (constantAddr reg.toNat = false → s.params.envModel = .free → b = a.b0) ∧
      (storedAddr reg.toNat = false → reg ≠ 0xE0#8 ∨ s.params.resetRead = .draw → b = a.b0)

/-- 70_reset_and_hazards section 3 (R153) as the model reads it (log 8): an accepted reset write opens the startup window
unless the delay is 0; a read inside it returns what was drawn; a successful delay at least as long closes it. -/
def Obligations.StartupWindow : Prop :=
  (∀ s : State, (s.acceptBytes 0xE0 [0xB6#8]).starting = true ↔ s.params.startupDelayMs ≠ 0#32) ∧
  (∀ (s : State) (a : Answer) (rest : List Answer) (reg : Byte), s.answers = a :: rest → a.ok = true →
    a.settled = false → s.starting = true →
    ∃ t, memRead reg 1 s = .ok [a.b0] t ∧ sameBlock s t ∧ t.starting = true) ∧
  (∀ (s : State) (a : Answer) (rest : List Answer) (ms : U32), s.answers = a :: rest → a.ok = true →
    s.params.startupDelayMs.toNat ≤ ms.toNat →
    ∃ t, delay ms s = .ok () t ∧ sameBlock s t ∧ t.starting = false)

/-- 20_memory section 4 (R51): before a read of CTRL_MEAS, and at no other read, the environment may return a Forced mode
field to 00; it changes nothing else the sensor holds, and not MODE. The model draws it at failing reads too (log 10). -/
def Obligations.ForcedReturn : Prop :=
  ∀ (s : State) (a : Answer) (reg : Byte) (n : Nat),
    sameBlock s (s.beforeRead a reg n) ∧ sameSensorBut [0xF4] s (s.beforeRead a reg n) ∧
    (a.completed = false ∨ ¬(reg.toNat ≤ 0xF4 ∧ 0xF4 < reg.toNat + n) → sameSensorBut [] s (s.beforeRead a reg n)) ∧
    (a.completed = true → reg.toNat ≤ 0xF4 → 0xF4 < reg.toNat + n → ∀ b, s.sensorByte 0xF4 = some b →
      ∃ b', (s.beforeRead a reg n).sensorByte 0xF4 = some b' ∧ b'.extractLsb' 2 6 = b.extractLsb' 2 6 ∧
        b'.extractLsb' 0 2 = if b.extractLsb' 0 2 = 0b11#2 then 0b11#2 else 0b00#2)

/-! ## Operands -/

/-- R44: both forms of the raw count, and its range. -/
def Obligations.RawCountValue : Prop :=
  ∀ msb lsb xlsb : Byte,
    (rawCount msb lsb xlsb).toNat = msb.toNat * 4096 + lsb.toNat * 16 + xlsb.toNat / 16 ∧
    (rawCount msb lsb xlsb).toNat = (msb.toNat * 65536 + lsb.toNat * 256 + xlsb.toNat) / 16 ∧
    (rawCount msb lsb xlsb).toNat < 1048576

/-- R80 and R81: the unsigned and the signed decode of a calibration word, and the round trip of every signed value. -/
def Obligations.CalibrationWordDecode : Prop :=
  (∀ b0 b1 : Byte, (wordOfBytes b0 b1).toNat = b1.toNat * 256 + b0.toNat) ∧
  (∀ b0 b1 : Byte, (wordOfBytes b0 b1).toInt =
    if b1.toNat * 256 + b0.toNat < 0x8000 then ((b1.toNat * 256 + b0.toNat : Nat) : Int)
    else ((b1.toNat * 256 + b0.toNat : Nat) : Int) - 0x10000) ∧
  (∀ v : Int, -32768 ≤ v → v ≤ 32767 →
    (wordOfBytes (BitVec.ofNat 8 ((v % 65536).toNat &&& 0xFF)) (BitVec.ofNat 8 ((v % 65536).toNat >>> 8))).toInt = v)

/-- 40_codec section 1: (a) a codec write alters no bit outside its field; (b) under ENV-MEM, past the startup time and with no Forced
completion in between, reading a field back gives the low bits written, while under ENV-FREE the read is the draw; (c) a
whole-byte write stores the value, and still reads first. -/
def Obligations.CodecProperties : Prop :=
  (∀ (b v : Byte) (start width i : Nat), 1 ≤ width → start + width ≤ 8 → (i < start ∨ start + width ≤ i) →
    (insertField b v start width).getLsbD i = b.getLsbD i) ∧
  (∀ (s : State) (reg v : Byte) (start width : Nat) (a1 a2 a3 : Answer) (rest : List Answer),
    reg = 0xF4#8 ∨ reg = 0xF5#8 → 1 ≤ width → start + width ≤ 8 → s.starting = false →
    s.answers = a1 :: a2 :: a3 :: rest → a1.ok = true → a2.ok = true → a3.ok = true →
    ∃ s1 s2 f, codecSet reg v start width s = .ok () s1 ∧ codecGet reg start width s1 = .ok f s2 ∧
      (s.params.envModel = .mem → (reg = 0xF5#8 ∨ a3.completed = false) → f = v &&& ((1#8 <<< width) - 1#8)) ∧
      (s.params.envModel = .free → f = (a3.b0 >>> start) &&& ((1#8 <<< width) - 1#8))) ∧
  (∀ (s : State) (reg v : Byte) (a1 a2 : Answer) (rest : List Answer), s.answers = a1 :: a2 :: rest → a1.ok = true →
    a2.ok = true → ∃ b t, codecSet reg v 0 8 s = .ok () t ∧
      t.trace = s.trace ++ [.rd reg 1 (some [b]), .wr reg [v] true])

/-! ## Codec commands -/

/-- 40_codec section 2: SET_FIELD in Sleep with both calls succeeding reads the byte, writes it with the field replaced,
changes no block register and answers OK; the sensor holds the new byte. -/
def Obligations.SetFieldResult : Prop :=
  ∀ (s : State) (reg : Byte) (start : BitVec 3) (width : BitVec 4) (value : Byte) (a1 a2 : Answer)
    (rest : List Answer), s.operational → (Instr.setField reg start width value).wf = true → s.mode = .sleep →
    s.answers = a1 :: a2 :: rest → a1.ok = true → a2.ok = true →
    ∃ b t, exec (.setField reg start width value) s = .next t ∧ sameBlock s t ∧ t.answers = rest ∧
      t.trace = s.trace ++ codecSetEvents reg b value start.toNat width.toNat ++ [.rsp .ok .absent] ∧
      t.sensorByte reg.toNat = some (insertField b value start.toNat width.toNat) ∧
      sameSensorBut [reg.toNat] s t ∧
      (s.params.envModel = .mem → s.starting = false → a1.completed = false →
        ∀ x, s.sensorByte reg.toNat = some x → b = x)

/-- 40_codec section 2: GET_FIELD with its call succeeding answers the field of the byte read, and changes no block
register. Past the startup time the byte is the one held under ENV-MEM, and the one drawn for an address without a content,
but RESET where 10_state section 2's value is assumed of the sensor (log 19): there it is 0x00 under ENV-MEM. Under
ENV-FREE only the NVM and the ID are not drawn. -/
def Obligations.GetFieldResult : Prop :=
  ∀ (s : State) (reg : Byte) (start : BitVec 3) (width : BitVec 4) (a : Answer) (rest : List Answer),
    s.operational → (Instr.getField reg start width).wf = true → s.answers = a :: rest → a.ok = true →
    ∃ b t, exec (.getField reg start width) s = .next t ∧ sameBlock s t ∧ t.answers = rest ∧
      t.trace = s.trace ++ [.rd reg 1 (some [b]),
        .rsp .ok (.byte ((b >>> start.toNat) &&& ((1#8 <<< width.toNat) - 1#8)))] ∧
      (s.starting = false → storedAddr reg.toNat = false → reg ≠ 0xE0#8 ∨ s.params.resetRead = .draw → b = a.b0) ∧
      (s.params.envModel = .mem → s.params.resetRead = .zero → s.starting = false → reg = 0xE0#8 → b = 0x00#8) ∧
      (s.params.envModel = .free → constantAddr reg.toNat = false → b = a.b0) ∧
      (s.params.envModel = .mem → s.starting = false → a.completed = false →
        ∀ x, s.sensorByte reg.toNat = some x → b = x)

/-- 40_codec section 2: the frame of the codec commands, whatever they answer. SET_FIELD stores to its REG only;
GET_FIELD stores nothing, and CTRL_MEAS changes only by a Forced return. -/
def Obligations.FieldAccessFrame : Prop :=
  (∀ (s t : State) reg start width value, (Instr.setField reg start width value).wf = true →
    exec (.setField reg start width value) s = .next t →
    sameBlock { s with fault := t.fault, faultCause := t.faultCause } t ∧ sameSensorBut [reg.toNat] s t) ∧
  (∀ (s t : State) reg start width, exec (.getField reg start width) s = .next t →
    sameBlock { s with fault := t.fault, faultCause := t.faultCause } t ∧ sameSensorBut [0xF4] s t ∧
      sameOrReturned s t)

/-! ## Mode controller -/

/-- R104: SetModeProc writes the mode field through the codec, even when the code is the one held, and changes MODE only
after the write succeeds; a failure of the read or of the write leaves MODE. -/
def Obligations.SetModeProcedure : Prop :=
  ∀ (s : State) (m : Mode) (a1 a2 : Answer) (rest : List Answer), s.answers = a1 :: a2 :: rest →
    (a1.ok = true → a2.ok = true → ∃ b t, setModeProc m s = .ok () t ∧ sameBlock { s with mode := m } t ∧
      t.trace = s.trace ++ [.rd 0xF4#8 1 (some [b]), .wr 0xF4#8 [(b &&& 0xFC#8) ||| m.code.setWidth 8] true] ∧
      t.sensorByte 0xF4 = some ((b &&& 0xFC#8) ||| m.code.setWidth 8)) ∧
    (a1.ok = false → ∃ t, setModeProc m s = .error (.raise .interfaceError) t ∧ sameBlock s t ∧
      t.trace = s.trace ++ [.rd 0xF4#8 1 none]) ∧
    (a1.ok = true → a2.ok = false → ∃ b t, setModeProc m s = .error (.raise .interfaceError) t ∧ sameBlock s t ∧
      t.trace = s.trace ++ [.rd 0xF4#8 1 (some [b]), .wr 0xF4#8 [(b &&& 0xFC#8) ||| m.code.setWidth 8] false])

/-- 44_mode_controller section 3: SET_MODE with both calls succeeding leaves MODE at its operand, writes the mode field
and keeps CTRL_MEAS[7:2] of the byte read, changes no other register and answers OK. -/
def Obligations.SetModeResult : Prop :=
  ∀ (s : State) (m : Mode) (a1 a2 : Answer) (rest : List Answer), s.operational → s.answers = a1 :: a2 :: rest →
    a1.ok = true → a2.ok = true →
    ∃ b t, exec (.setMode m) s = .next t ∧ sameBlock { s with mode := m } t ∧ t.answers = rest ∧
      t.trace = s.trace ++
        [.rd 0xF4#8 1 (some [b]), .wr 0xF4#8 [(b &&& 0xFC#8) ||| m.code.setWidth 8] true, .rsp .ok .absent] ∧
      t.sensorByte 0xF4 = some ((b &&& 0xFC#8) ||| m.code.setWidth 8) ∧
      (s.params.envModel = .mem → s.starting = false → a1.completed = false →
        ∀ x, s.sensorByte 0xF4 = some x → b = x)

/-- 44_mode_controller section 1: SetSleepOnly stopped by its call number j, counted from 0: the calls before it are the
protocol's, no later one is made, MODE is the captured one if Sleep was not yet set (j < 2) and Sleep after, and nothing
else of the block changed. -/
def Obligations.SleepOnlyAbort : Prop :=
  ∀ (s : State) (reg : Byte) (start : Nat) (code : BitVec 3) (as : List Answer) (a : Answer) (rest : List Answer),
    s.answers = as ++ a :: rest → as.length < 6 → allOk as → a.ok = false →
    ∃ b0 b1 b2 t, setSleepOnly reg start code s = .error (.raise .interfaceError) t ∧
      sameBlock { s with mode := if as.length < 2 then s.mode else .sleep } t ∧ t.answers = rest ∧
      t.trace = s.trace ++ abortedAt (sleepOnlyEvents s.mode reg start code b0 b1 b2) as.length

/-- 44_mode_controller sections 1 and 3: SET_OSRS_P, SET_OSRS_T, SET_STANDBY and SET_FILTER with all six calls succeeding
make exactly the six events of the protocol, leave MODE as it was and answer OK; under ENV-MEM, past the startup time and
with no Forced completion, the bytes read are those held and just written. -/
def Obligations.SleepOnlySettersResult : Prop :=
  ∀ (i : Instr) (reg : Byte) (start : Nat) (code : BitVec 3) (s : State) (as rest : List Answer),
    SleepOnlySetter i reg start code → s.operational → s.answers = as ++ rest → as.length = 6 → allOk as →
    ∃ b0 b1 b2 t, exec i s = .next t ∧ sameBlock s t ∧ t.answers = rest ∧
      t.trace = s.trace ++ sleepOnlyEvents s.mode reg start code b0 b1 b2 ++ [.rsp .ok .absent] ∧
      t.sensorByte 0xF4 = some ((b2 &&& 0xFC#8) ||| s.mode.code.setWidth 8) ∧
      (reg = 0xF5#8 → t.sensorByte 0xF5 = some (insertField b1 (code.setWidth 8) start 3)) ∧
      (s.params.envModel = .mem → s.starting = false → (∀ a ∈ as, a.completed = false) →
        ∀ x y, s.sensorByte 0xF4 = some x → s.sensorByte 0xF5 = some y →
          b0 = x ∧ b1 = (if reg = 0xF4#8 then x &&& 0xFC#8 else y) ∧
          b2 = if reg = 0xF4#8 then insertField (x &&& 0xFC#8) (code.setWidth 8) start 3 else x &&& 0xFC#8)

/-- 44_mode_controller sections 1 and 3: CONFIGURE_ALL with all 26 calls succeeding writes the four sleep-only fields in
order, each inside the Sleep and restore protocol, and the mode last; it leaves MODE at its operand and answers OK; under
ENV-MEM, past the startup time, the sensor holds the five fields, CONFIG[1:0] kept. -/
def Obligations.ConfigureAllResult : Prop :=
  ∀ (s : State) (op ot : Osrs) (sb : Standby) (fl : Filter) (md : Mode) (as rest : List Answer),
    s.operational → s.answers = as ++ rest → as.length = 26 → allOk as →
    ∃ b t, exec (.configureAll op ot sb fl md) s = .next t ∧ sameBlock { s with mode := md } t ∧
      t.answers = rest ∧ t.trace = s.trace ++ configureEvents s.mode op ot sb fl md b ++ [.rsp .ok .absent] ∧
      (s.params.envModel = .mem → s.starting = false → ∀ x y, s.sensorByte 0xF4 = some x →
        s.sensorByte 0xF5 = some y →
        t.sensorByte 0xF4 = some (ot.code ++ op.code ++ md.code) ∧
          t.sensorByte 0xF5 = some (sb.code ++ fl.code ++ y.extractLsb' 0 2))

/-- 44_mode_controller section 2: INIT on the right chip, past the startup time, with all 42 calls succeeding makes them in
order: the interface, the ID, the reset write, the startup delay, the twelve calibration reads and the default
configuration. It makes the instance Ready, in Sleep, with the NVM's coefficients, the budget armed and T_FINE invalid,
and answers OK; every other register is as it was; under ENV-MEM CTRL_MEAS then holds 0x24 and CONFIG 0x40. That the delay
ends the startup window, so that the calibration reads return the NVM, is the model's reading (log 8). -/
def Obligations.InitResult : Prop :=
  ∀ (s : State) (nvm : Fin 24 → Byte) (as rest : List Answer), s.serving → s.answers = as ++ rest →
    as.length = 42 → allOk as → s.starting = false → s.sensorByte 0xD0 = some 0x58#8 →
    (∀ k, s.sensorByte (0x88 + k.val) = some (nvm k)) →
    ∃ b t, exec .init s = .next t ∧
      sameBlock { s with
        lifecycle := .ready, addrValid := true, mode := .sleep, tFineValid := false, cal := calibOfNvm nvm,
        calValid := true, pollBudget := s.params.pollCeilingMs } t ∧
      t.answers = rest ∧
      t.trace = s.trace ++ [.ifI true, .rd 0xD0#8 1 (some [0x58#8]), .wr 0xE0#8 [0xB6#8] true,
        .dly s.params.startupDelayMs true] ++ calibrationEvents nvm ++
        configureEvents .sleep .x1 .x1 .ms125 .off .sleep b ++ [.rsp .ok .absent] ∧
      (s.params.envModel = .mem → t.sensorByte 0xF4 = some 0x24#8 ∧ t.sensorByte 0xF5 = some 0x40#8)

/-- 44_mode_controller section 2: INIT on a wrong chip answers SENSOR_ID_ERROR after two calls; it leaves LIFECYCLE,
ADDR_VALID and T_FINE_VALID at 0 and every other register as it was; no calibration is fetched, no configuration written,
and the sensor is untouched. -/
def Obligations.InitWrongChip : Prop :=
  ∀ (s : State) (id : Byte) (a1 a2 : Answer) (rest : List Answer), s.serving → s.answers = a1 :: a2 :: rest →
    a1.ok = true → a2.ok = true → s.starting = false → s.sensorByte 0xD0 = some id → id ≠ 0x58#8 →
    ∃ t, exec .init s = .next t ∧
      sameBlock { s with lifecycle := .uninit, addrValid := false, tFineValid := false } t ∧
      t.trace = s.trace ++ [.ifI true, .rd 0xD0#8 1 (some [id]), .rsp .sensorIdError .absent] ∧
      sameSensorBut [] s t

/-- 44_mode_controller section 2: an INIT that is served leaves the instance Ready exactly when it answers OK. -/
def Obligations.InitReadyExactlyWhenOk : Prop :=
  ∀ s t : State, s.serving → exec .init s = .next t →
    (t.lifecycle = .ready ↔ t.trace.getLast? = some (.rsp .ok .absent))

/-- 44_mode_controller section 2: DEINIT with both calls succeeding resets the sensor, stops the interface and answers OK;
and whatever happens, a served DEINIT leaves the instance Uninit. -/
def Obligations.DeinitResult : Prop :=
  (∀ (s : State) (a1 a2 : Answer) (rest : List Answer), s.operational → s.answers = a1 :: a2 :: rest →
    a1.ok = true → a2.ok = true →
    ∃ t, exec .deinit s = .next t ∧ sameBlock { s with lifecycle := .uninit, mode := .sleep } t ∧
      t.trace = s.trace ++ [.wr 0xE0#8 [0xB6#8] true, .ifD true, .rsp .ok .absent] ∧
      t.sensorByte 0xF4 = some 0x00#8 ∧ t.sensorByte 0xF5 = some 0x00#8) ∧
  (∀ s t : State, s.operational → exec .deinit s = .next t → t.lifecycle = .uninit)

/-- 70_reset_and_hazards section 3: after a served DEINIT every command but INIT faults NOT_READY. -/
def Obligations.NoUseAfterDeinit : Prop :=
  ∀ (s t : State) (i : Instr), s.operational → exec .deinit s = .next t → i ≠ .init →
    exec i t = .next { t with fault := true, faultCause := .notReady, trace := t.trace ++ [.rsp .faulted .absent] }

/-- 44_mode_controller section 2: CHECK_ID, its call succeeding past the startup time, answers the right chip's ID and
changes no register; a wrong chip's ID answers SENSOR_ID_ERROR and clears ADDR_VALID and LIFECYCLE. -/
def Obligations.CheckIdResult : Prop :=
  ∀ (s : State) (id : Byte) (a : Answer) (rest : List Answer), s.operational → s.answers = a :: rest → a.ok = true →
    s.starting = false → s.sensorByte 0xD0 = some id →
    ∃ t, exec .checkId s = .next t ∧ t.answers = rest ∧ sameSensorBut [] s t ∧
      (id = 0x58#8 → sameBlock s t ∧
        t.trace = s.trace ++ [.rd 0xD0#8 1 (some [0x58#8]), .rsp .ok (.byte 0x58#8)]) ∧
      (id ≠ 0x58#8 → sameBlock { s with lifecycle := .uninit, addrValid := false } t ∧
        t.trace = s.trace ++ [.rd 0xD0#8 1 (some [id]), .rsp .sensorIdError .absent])

/-- 44_mode_controller sections 1 and 2: RESET with its call succeeding writes 0xB6 to 0xE0, leaves MODE in Sleep, clears
the sensor's CTRL_MEAS and CONFIG, changes nothing else and answers OK; with its call failing it leaves MODE. -/
def Obligations.ResetResult : Prop :=
  ∀ (s : State) (a : Answer) (rest : List Answer), s.operational → s.answers = a :: rest →
    (a.ok = true → ∃ t, exec .reset s = .next t ∧ sameBlock { s with mode := .sleep } t ∧ t.answers = rest ∧
      t.trace = s.trace ++ [.wr 0xE0#8 [0xB6#8] true, .rsp .ok .absent] ∧ t.sensorByte 0xF4 = some 0x00#8 ∧
      t.sensorByte 0xF5 = some 0x00#8 ∧ sameSensorBut [0xF4, 0xF5] s t) ∧
    (a.ok = false → ∃ t, exec .reset s = .next t ∧ sameBlock s t ∧
      t.trace = s.trace ++ [.wr 0xE0#8 [0xB6#8] false, .rsp .interfaceError .absent])

/-- 44_mode_controller section 4: GET_MODE with its call succeeding answers the mode field of the byte read; the field 10
answers as MODE10_DECODE says. No register changes, MODE among them. -/
def Obligations.GetModeResult : Prop :=
  ∀ (s : State) (a : Answer) (rest : List Answer), s.operational → s.answers = a :: rest → a.ok = true →
    ∃ b c v t, exec .getMode s = .next t ∧ sameBlock s t ∧ t.answers = rest ∧
      t.trace = s.trace ++ [.rd 0xF4#8 1 (some [b]), .rsp c v] ∧
      (b.extractLsb' 0 2 ≠ 0b10#2 → c = .ok ∧ v = .mode (b.extractLsb' 0 2)) ∧
      (b.extractLsb' 0 2 = 0b10#2 → s.params.mode10Decode = .forced → c = .ok ∧ v = .mode 0b01#2) ∧
      (b.extractLsb' 0 2 = 0b10#2 → s.params.mode10Decode = .unknown → c = .unknownModeOrFilter ∧ v = .absent) ∧
      (s.params.envModel = .mem → s.starting = false → a.completed = false →
        ∀ x, s.sensorByte 0xF4 = some x → b = x)

/-- 44_mode_controller section 4: the other getters with their call succeeding answer the field's code, or
UNKNOWN_MODE_OR_FILTER where the code is no enumerant: 110 and 111 for oversampling, 101 to 111 for the filter, none for
standby. No register changes. -/
def Obligations.FieldGettersResult : Prop :=
  ∀ (i : Instr) (reg : Byte) (start : Nat) (limit : Nat) (s : State) (a : Answer) (rest : List Answer),
    (i = .getOsrsP ∧ reg = 0xF4#8 ∧ start = 2 ∧ limit = 5 ∨ i = .getOsrsT ∧ reg = 0xF4#8 ∧ start = 5 ∧ limit = 5 ∨
      i = .getStandby ∧ reg = 0xF5#8 ∧ start = 5 ∧ limit = 7 ∨ i = .getFilter ∧ reg = 0xF5#8 ∧ start = 2 ∧ limit = 4) →
    s.operational → s.answers = a :: rest → a.ok = true →
    ∃ b c v t, exec i s = .next t ∧ sameBlock s t ∧ t.answers = rest ∧
      t.trace = s.trace ++ [.rd reg 1 (some [b]), .rsp c v] ∧
      ((b.extractLsb' start 3).toNat ≤ limit → c = .ok ∧ v = .code (b.extractLsb' start 3)) ∧
      (limit < (b.extractLsb' start 3).toNat → c = .unknownModeOrFilter ∧ v = .absent) ∧
      (s.params.envModel = .mem → s.starting = false → a.completed = false →
        ∀ x, s.sensorByte reg.toNat = some x → b = x)

/-- 44_mode_controller section 4: the frame of the getters, whatever they answer: no register but the fault state, and no
sensor byte but CTRL_MEAS by a Forced return. -/
def Obligations.GettersFrame : Prop :=
  ∀ (i : Instr) (s t : State),
    (i = .getMode ∨ i = .getOsrsP ∨ i = .getOsrsT ∨ i = .getStandby ∨ i = .getFilter) → exec i s = .next t →
    sameBlock { s with fault := t.fault, faultCause := t.faultCause } t ∧ sameSensorBut [0xF4] s t ∧
      sameOrReturned s t

/-- 44_mode_controller section 3: the frame of the setters, whatever they answer: MODE and the fault state alone may
change; they store to CTRL_MEAS and CONFIG, and SET_MODE, SET_OSRS_P and SET_OSRS_T to CTRL_MEAS only. -/
def Obligations.SettersFrame : Prop :=
  ∀ (i : Instr) (s t : State),
    ((∃ m, i = .setMode m) ∨ (∃ reg start code, SleepOnlySetter i reg start code) ∨
      ∃ op ot sb fl md, i = .configureAll op ot sb fl md) → exec i s = .next t →
    sameBlock { s with mode := t.mode, fault := t.fault, faultCause := t.faultCause } t ∧
      sameSensorBut [0xF4, 0xF5] s t ∧
      ((∃ m, i = .setMode m) ∨ (∃ c, i = .setOsrsP c) ∨ (∃ c, i = .setOsrsT c) → sameSensorBut [0xF4] s t)

/-- 44_mode_controller section 2: the frame of the lifecycle commands, whatever they answer. CHECK_ID stores nothing. -/
def Obligations.LifecycleFrame : Prop :=
  (∀ s t : State, exec .init s = .next t →
    sameBlock { s with
      lifecycle := t.lifecycle, tFineValid := t.tFineValid, addrValid := t.addrValid, mode := t.mode, cal := t.cal,
      calValid := t.calValid, pollBudget := t.pollBudget } t ∧ sameSensorBut [0xF4, 0xF5] s t) ∧
  (∀ s t : State, exec .deinit s = .next t →
    sameBlock { s with lifecycle := t.lifecycle, mode := t.mode, fault := t.fault, faultCause := t.faultCause } t ∧
      sameSensorBut [0xF4, 0xF5] s t) ∧
  (∀ s t : State, exec .checkId s = .next t →
    sameBlock { s with
      lifecycle := t.lifecycle, addrValid := t.addrValid, fault := t.fault, faultCause := t.faultCause } t ∧
      sameSensorBut [] s t) ∧
  (∀ s t : State, exec .reset s = .next t →
    sameBlock { s with mode := t.mode, fault := t.fault, faultCause := t.faultCause } t ∧
      sameSensorBut [0xF4, 0xF5] s t)

/-! ## Calibration -/

/-- R83: FetchCal with all twelve reads succeeding makes exactly those reads, in rising order, stores the decoded
coefficients and sets CAL_VALID; past the startup time the bytes are the NVM's. Stopped by read number j it makes no
later read, raises InterfaceError, leaves CAL_VALID 0 and writes no coefficient. -/
def Obligations.FetchCalProcedure : Prop :=
  (∀ (s : State) (as rest : List Answer), s.answers = as ++ rest → as.length = 12 → allOk as →
    ∃ (b : Fin 24 → Byte) (t : State), fetchCal s = .ok () t ∧
      sameBlock { s with cal := calibOfNvm b, calValid := true } t ∧ t.answers = rest ∧
      t.trace = s.trace ++ calibrationEvents b ∧
      (s.starting = false → ∀ k x, s.sensorByte (0x88 + k.val) = some x → b k = x)) ∧
  (∀ (s : State) (as : List Answer) (a : Answer) (rest : List Answer), s.answers = as ++ a :: rest →
    as.length < 12 → allOk as → a.ok = false →
    ∃ (b : Fin 24 → Byte) (t : State), fetchCal s = .error (.raise .interfaceError) t ∧
      sameBlock { s with calValid := false } t ∧ t.answers = rest ∧
      t.trace = s.trace ++ abortedAt (calibrationEvents b) as.length)

/-! ## Compensation -/

/-- R86: CompT in exact integers, each 32-bit result reduced modulo 2^32 and each shift a floor division; it sets T_FINE
and T_FINE_VALID, changes nothing else and cannot fail. -/
def Obligations.TemperatureFormula : Prop :=
  ∀ (s : State) (adc : U20), ∃ tf t : S32, compT adc s = .ok t { s with tFine := tf, tFineValid := true } ∧
    let a : Int := adc.toNat
    let t1 : Int := s.cal.t1.toNat
    let t2 : Int := s.cal.t2.toInt
    let t3 : Int := s.cal.t3.toInt
    let x1 := wrap (a / 8 - wrap (t1 * 2))
    let var1 := wrap (x1 * t2) / 2048
    let x2 := wrap (a / 16 - t1)
    let var2 := wrap (wrap (x2 * x2) / 4096 * t3) / 16384
    tf.toInt = wrap (var1 + var2) ∧ t.toInt = wrap (wrap (tf.toInt * 5) + 128) / 256

/-- 42_compensation section 1: CompP in exact integers, stage by stage, with the zero denominator, the two division
branches and the final correction; it needs T_FINE_VALID and writes nothing. -/
def Obligations.PressureFormula : Prop :=
  ∀ (s : State) (adc : U20),
    (s.tFineValid = false → compP adc s = .error (.fault .tfineUnset) s) ∧
    (s.tFineValid = true → ∃ p : U32, compP adc s = .ok p s ∧
      let tf : Int := s.tFine.toInt
      let p1 : Int := s.cal.p1.toNat
      let v1 := wrap (tf / 2 - 64000)
      let q := wrap (v1 / 4 * (v1 / 4))
      let v2a := wrap (q / 2048 * s.cal.p6.toInt)
      let v2b := wrap (v2a + wrap (wrap (v1 * s.cal.p5.toInt) * 2))
      let v2 := wrap (v2b / 4 + wrap (s.cal.p4.toInt * 65536))
      let sc := wrap (wrap (s.cal.p3.toInt * (q / 8192)) / 8 + wrap (s.cal.p2.toInt * v1) / 2) / 262144
      let den := wrap (wrap (32768 + sc) * p1) / 32768
      let c : Int := ((1048576 - (adc.toNat : Int) - v2 / 4096) * 3125) % 4294967296
      let d : Int := den % 4294967296
      let qt : Int := if c < 2147483648 then c * 2 / d else c / d * 2 % 4294967296
      let w1 := wrap (s.cal.p9.toInt * ((qt / 8 * (qt / 8)) % 4294967296 / 8192)) / 4096
      let w2 := wrap (qt / 4 * s.cal.p8.toInt) / 8192
      (den = 0 → p = 0#32) ∧
      (den ≠ 0 → (p.toNat : Int) = (qt + wrap (w1 + w2 + s.cal.p7.toInt) / 16) % 4294967296))

/-- 42_compensation section 1: for one candidate and a divisor of at least 2 the two branches of the division differ by at
most 1: below 2^31 the quotient is the floor of the doubled candidate, and from there on at most that floor and at least
one less. For a divisor of 1 the second branch's product wraps. -/
def Obligations.DivisionBranchesAgree : Prop :=
  ∀ c d : U32, d ≠ 0#32 →
    (c.toNat < 0x80000000 → (presQuotient c d).toNat = 2 * c.toNat / d.toNat ∧
      2 * (c.toNat / d.toNat) ≤ (presQuotient c d).toNat ∧
      (presQuotient c d).toNat ≤ 2 * (c.toNat / d.toNat) + 1) ∧
    (0x80000000 ≤ c.toNat → (presQuotient c d).toNat = 2 * (c.toNat / d.toNat) % 4294967296) ∧
    (0x80000000 ≤ c.toNat → 2 ≤ d.toNat → (presQuotient c d).toNat ≤ 2 * c.toNat / d.toNat ∧
      2 * c.toNat / d.toNat ≤ (presQuotient c d).toNat + 1)

/-- 42_compensation section 2: COMP_T and COMP_P of an operational instance make no capability call; COMP_T writes T_FINE
and T_FINE_VALID alone and answers the temperature; COMP_P with a valid T_FINE writes nothing and answers the pressure. -/
def Obligations.DatapathCommandsResult : Prop :=
  (∀ (s : State) (adc : U20), s.operational →
    exec (.compT adc) s = .next { s with
      tFine := fineTemperature s.cal adc, tFineValid := true,
      trace := s.trace ++ [.rsp .ok (.temperature (centiDegrees (fineTemperature s.cal adc)))] }) ∧
  (∀ (s : State) (adc : U20), s.operational → s.tFineValid = true →
    exec (.compP adc) s = .next { s with
      trace := s.trace ++ [.rsp .ok (.pressure (compensatedPressure s.cal s.tFine adc))] })

/-- 42_compensation section 1: the worked example, and the zero denominators of P1 = 0 and P1 = 1. -/
def Obligations.ReferenceExample : Prop :=
  let ref : Calib := ⟨27504#16, 26435#16, -1000#16, 36477#16, -10685#16, 3024#16, 2855#16, 140#16, -7#16, 15500#16,
    -14600#16, 6000#16⟩
  fineTemperature ref 519888#20 = 128422#32 ∧ centiDegrees 128422#32 = 2508#32 ∧
  presDenominator ref 128422#32 = 36471#32 ∧ presV2 ref 128422#32 = 187120048#32 ∧
  presCandidate ref 128422#32 415148#20 = 1836703125#32 ∧
  compensatedPressure ref 128422#32 415148#20 = 100656#32 ∧
  compensatedPressure { ref with p1 := 0#16 } 128422#32 415148#20 = 0#32 ∧
  compensatedPressure { ref with p1 := 1#16 } 128422#32 415148#20 = 0#32

/-! ## Poller and measurement -/

/-- R97: Poll's exact counts. Let k be the whole periods in the budget on entry. If the measuring bit is set at every read,
Poll makes k + 1 reads and k delays and raises PollTimeoutError with the remainder as budget; if it is first clear at read
j + 1 with j at most k, Poll makes j + 1 reads and j delays and ends Ready with the budget re-armed; and whatever
happens it makes at most 2k + 1 calls. -/
def Obligations.PollExactCounts : Prop :=
  (∀ (s : State) (waits : List (Answer × Answer)) (last : Answer) (rest : List Answer),
    waits.length = s.pollBudget.toNat / s.params.pollPeriod.ms.toNat → waitsBusy waits → last.ok = true → busy last →
    s.answers = waitAnswers waits ++ last :: rest →
    ∃ t, poll s = .error (.raise .pollTimeoutError) t ∧
      sameBlock { s with pollBudget := s.pollBudget % s.params.pollPeriod.ms, pstate := .timedOut } t ∧
      t.answers = rest ∧
      t.trace = s.trace ++ waitEvents s.params.pollPeriod.ms waits ++ [.rd 0xF3#8 1 (some [last.b0])]) ∧
  (∀ (s : State) (waits : List (Answer × Answer)) (last : Answer) (rest : List Answer),
    waits.length ≤ s.pollBudget.toNat / s.params.pollPeriod.ms.toNat → waitsBusy waits → last.ok = true → ¬busy last →
    s.answers = waitAnswers waits ++ last :: rest →
    ∃ t, poll s = .ok () t ∧
      sameBlock { s with pollBudget := s.params.pollCeilingMs, pstate := .ready } t ∧ t.answers = rest ∧
      t.trace = s.trace ++ waitEvents s.params.pollPeriod.ms waits ++ [.rd 0xF3#8 1 (some [last.b0])]) ∧
  (∀ s : State, ∃ calls : List Event,
    (match poll s with
      | .ok _ t => t.trace
      | .error _ t => t.trace) = s.trace ++ calls ∧
    calls.length ≤ 2 * (s.pollBudget.toNat / s.params.pollPeriod.ms.toNat) + 1)

/-- 43_poller section and 45_measurement section 1: GET_TEMPERATURE, when STATUS reads busy at most as often as the ceiling
allows and then clear, and every call succeeds: the poll's reads and delays, one burst, T_FINE from its count, the
temperature as the answer; every other register as it was and the budget re-armed. -/
def Obligations.GetTemperatureResult : Prop :=
  ∀ (s : State) (waits : List (Answer × Answer)) (done burst : Answer) (rest : List Answer), s.operational →
    waits.length ≤ waitsPerPoll s.params → waitsBusy waits → done.ok = true → ¬busy done → burst.ok = true →
    s.answers = waitAnswers waits ++ done :: burst :: rest →
    ∃ t, exec .getTemperature s = .next t ∧
      sameBlock { s with
        pollBudget := s.params.pollCeilingMs, pstate := .ready, tFineValid := true,
        tFine := fineTemperature s.cal (burstCount burst) } t ∧
      t.answers = rest ∧
      t.trace = s.trace ++ waitEvents s.params.pollPeriod.ms waits ++ [.rd 0xF3#8 1 (some [done.b0]),
        .rd 0xFA#8 3 (some [burst.b0, burst.b1, burst.b2]),
        .rsp .ok (.temperature (centiDegrees (fineTemperature s.cal (burstCount burst))))]

/-- 45_measurement section 1: GET_PRESSURE in the same circumstances with a valid T_FINE: the pressure burst, the pressure
as the answer, and T_FINE as it was. -/
def Obligations.GetPressureResult : Prop :=
  ∀ (s : State) (waits : List (Answer × Answer)) (done burst : Answer) (rest : List Answer), s.operational →
    s.tFineValid = true → waits.length ≤ waitsPerPoll s.params → waitsBusy waits → done.ok = true → ¬busy done →
    burst.ok = true → s.answers = waitAnswers waits ++ done :: burst :: rest →
    ∃ t, exec .getPressure s = .next t ∧
      sameBlock { s with pollBudget := s.params.pollCeilingMs, pstate := .ready } t ∧ t.answers = rest ∧
      t.trace = s.trace ++ waitEvents s.params.pollPeriod.ms waits ++ [.rd 0xF3#8 1 (some [done.b0]),
        .rd 0xF7#8 3 (some [burst.b0, burst.b1, burst.b2]),
        .rsp .ok (.pressure (compensatedPressure s.cal s.tFine (burstCount burst)))]

/-- 45_measurement sections 1 and 2: GET_ALL when every call succeeds: in Forced mode the Forced code is written again
first; then temperature, pressure with the T_FINE just written, and one power call whose result goes through ALT_FLOAT.
MODE is as it was, and T_FINE_VALID is not needed. -/
def Obligations.GetAllResult : Prop :=
  ∀ (s : State) (trig : List Answer) (waitsT waitsP : List (Answer × Answer)) (doneT burstT doneP burstP pw : Answer)
    (rest : List Answer), s.operational → trig.length = (if s.mode = .forced then 2 else 0) → allOk trig →
    waitsT.length ≤ waitsPerPoll s.params → waitsBusy waitsT → doneT.ok = true → ¬busy doneT → burstT.ok = true →
    waitsP.length ≤ waitsPerPoll s.params → waitsBusy waitsP → doneP.ok = true → ¬busy doneP → burstP.ok = true →
    pw.ok = true →
    s.answers = trig ++ waitAnswers waitsT ++ doneT :: burstT :: waitAnswers waitsP ++ doneP :: burstP :: pw :: rest →
    let tf := fineTemperature s.cal (burstCount burstT)
    let p := compensatedPressure s.cal tf (burstCount burstP)
    ∃ b t, exec .getAll s = .next t ∧
      sameBlock { s with
        pollBudget := s.params.pollCeilingMs, pstate := .ready, tFineValid := true, tFine := tf } t ∧
      t.answers = rest ∧
      t.trace = s.trace ++ retriggerEvents s.mode b ++
        waitEvents s.params.pollPeriod.ms waitsT ++
        [.rd 0xF3#8 1 (some [doneT.b0]), .rd 0xFA#8 3 (some [burstT.b0, burstT.b1, burstT.b2])] ++
        waitEvents s.params.pollPeriod.ms waitsP ++
        [.rd 0xF3#8 1 (some [doneP.b0]), .rd 0xF7#8 3 (some [burstP.b0, burstP.b1, burstP.b2]),
          .pow (p.toNat : Rat) (190284 / 1000000) (some pw.real),
          .rsp .ok (.all (centiDegrees tf) p (Config.altFloat pw.real))]

/-- 43_poller, 45_measurement section 1: the three measurement commands when STATUS reads busy every time of a fetch and no
call fails: POLL_TIMEOUT_ERROR after exactly the whole periods of the ceiling, whatever budget an earlier fetch left, and
no burst of that fetch is read. T_FINE is as it was, but where GET_ALL's pressure fetch times out: there it keeps the
value its temperature step wrote. -/
def Obligations.MeasurementTimeout : Prop :=
  (∀ (i : Instr) (s : State) (waits : List (Answer × Answer)) (last : Answer) (rest : List Answer),
    (i = .getTemperature ∨ i = .getPressure ∧ s.tFineValid = true) → s.operational →
    waits.length = waitsPerPoll s.params → waitsBusy waits → last.ok = true → busy last →
    s.answers = waitAnswers waits ++ last :: rest →
    ∃ t, exec i s = .next t ∧
      sameBlock { s with
        pollBudget := s.params.pollCeilingMs % s.params.pollPeriod.ms, pstate := .timedOut } t ∧
      t.answers = rest ∧
      t.trace = s.trace ++ waitEvents s.params.pollPeriod.ms waits ++
        [.rd 0xF3#8 1 (some [last.b0]), .rsp .pollTimeoutError .absent]) ∧
  (∀ (s : State) (trig : List Answer) (waits : List (Answer × Answer)) (last : Answer) (rest : List Answer),
    s.operational → trig.length = (if s.mode = .forced then 2 else 0) → allOk trig →
    waits.length = waitsPerPoll s.params → waitsBusy waits → last.ok = true → busy last →
    s.answers = trig ++ waitAnswers waits ++ last :: rest →
    ∃ b t, exec .getAll s = .next t ∧
      sameBlock { s with
        pollBudget := s.params.pollCeilingMs % s.params.pollPeriod.ms, pstate := .timedOut } t ∧
      t.answers = rest ∧
      t.trace = s.trace ++ retriggerEvents s.mode b ++ waitEvents s.params.pollPeriod.ms waits ++
        [.rd 0xF3#8 1 (some [last.b0]), .rsp .pollTimeoutError .absent]) ∧
  (∀ (s : State) (trig : List Answer) (waitsT waitsP : List (Answer × Answer)) (doneT burstT last : Answer)
    (rest : List Answer), s.operational → trig.length = (if s.mode = .forced then 2 else 0) → allOk trig →
    waitsT.length ≤ waitsPerPoll s.params → waitsBusy waitsT → doneT.ok = true → ¬busy doneT → burstT.ok = true →
    waitsP.length = waitsPerPoll s.params → waitsBusy waitsP → last.ok = true → busy last →
    s.answers = trig ++ waitAnswers waitsT ++ doneT :: burstT :: waitAnswers waitsP ++ last :: rest →
    ∃ b t, exec .getAll s = .next t ∧
      sameBlock { s with
        pollBudget := s.params.pollCeilingMs % s.params.pollPeriod.ms, pstate := .timedOut, tFineValid := true,
        tFine := fineTemperature s.cal (burstCount burstT) } t ∧
      t.answers = rest ∧
      t.trace = s.trace ++ retriggerEvents s.mode b ++ waitEvents s.params.pollPeriod.ms waitsT ++
        [.rd 0xF3#8 1 (some [doneT.b0]), .rd 0xFA#8 3 (some [burstT.b0, burstT.b1, burstT.b2])] ++
        waitEvents s.params.pollPeriod.ms waitsP ++ [.rd 0xF3#8 1 (some [last.b0]), .rsp .pollTimeoutError .absent])

/-- 42_compensation section 2, 45_measurement section 1: the frame of the datapath and measurement commands, whatever they
answer. The datapath commands make no call; only GET_ALL stores to the sensor, to CTRL_MEAS, and only in Forced mode. -/
def Obligations.MeasurementFrame : Prop :=
  (∀ (s t : State) (adc : U20), exec (.compT adc) s = .next t →
    t = { s with
      tFine := t.tFine, tFineValid := t.tFineValid, fault := t.fault, faultCause := t.faultCause, trace := t.trace }) ∧
  (∀ (s t : State) (adc : U20), exec (.compP adc) s = .next t →
    t = { s with fault := t.fault, faultCause := t.faultCause, trace := t.trace }) ∧
  (∀ s t : State, exec .getTemperature s = .next t →
    sameBlock { s with
      pollBudget := t.pollBudget, pstate := t.pstate, tFine := t.tFine, tFineValid := t.tFineValid,
      fault := t.fault, faultCause := t.faultCause } t ∧ sameSensorBut [] s t) ∧
  (∀ s t : State, exec .getPressure s = .next t →
    sameBlock { s with
      pollBudget := t.pollBudget, pstate := t.pstate, fault := t.fault, faultCause := t.faultCause } t ∧
      sameSensorBut [] s t) ∧
  (∀ s t : State, exec .getAll s = .next t →
    sameBlock { s with
      pollBudget := t.pollBudget, pstate := t.pstate, tFine := t.tFine, tFineValid := t.tFineValid,
      fault := t.fault, faultCause := t.faultCause } t ∧
      sameSensorBut (if s.mode = .forced then [0xF4] else []) s t)
end

