-- ==== Sys2Proof/Laws/Bits.lean ====
section
/-! SUPPORT. Bit vectors as numbers: concatenation and extraction, for the encoder and the decoder, and the enumerant
codes read back. -/

namespace Sys2Proof

theorem append_toNat {m n : Nat} (x : BitVec m) (y : BitVec n) : (x ++ y).toNat = x.toNat * 2 ^ n + y.toNat := by
  rw [BitVec.toNat_append, ← Nat.shiftLeft_add_eq_or_of_lt y.isLt, Nat.shiftLeft_eq]

theorem extract_toNat {m : Nat} (x : BitVec m) (s n : Nat) : (x.extractLsb' s n).toNat = x.toNat / 2 ^ s % 2 ^ n := by
  rw [BitVec.extractLsb'_toNat, Nat.shiftRight_eq_div_pow]

/-- A field is what arithmetic on the whole word says it is. -/
theorem extract_eq {m n : Nat} (x : BitVec m) (s : Nat) (y : BitVec n) (h : x.toNat / 2 ^ s % 2 ^ n = y.toNat) :
    x.extractLsb' s n = y := BitVec.eq_of_toNat_eq (by rw [extract_toNat, h])

/-! ### The words with fields, as numbers (R59, R61, R62) -/

theorem encode_setField_toNat (reg : Byte) (start : BitVec 3) (width : BitVec 4) (value : Byte) :
    (encode (.setField reg start width value)).toNat =
      0x01000000 + reg.toNat * 65536 + start.toNat * 4096 + width.toNat * 256 + value.toNat := by
  simp only [encode, append_toNat, BitVec.toNat_ofNat]
  omega

theorem encode_getField_toNat (reg : Byte) (start : BitVec 3) (width : BitVec 4) :
    (encode (.getField reg start width)).toNat =
      0x02000000 + reg.toNat * 65536 + start.toNat * 4096 + width.toNat * 256 := by
  simp only [encode, append_toNat, BitVec.toNat_ofNat]
  omega

theorem encode_configureAll_toNat (op ot : Osrs) (sb : Standby) (fl : Filter) (md : Mode) :
    (encode (.configureAll op ot sb fl md)).toNat =
      0x25000000 + op.code.toNat * 4096 + ot.code.toNat * 512 + sb.code.toNat * 64 + fl.code.toNat * 8 +
        md.code.toNat := by
  simp only [encode, append_toNat, BitVec.toNat_ofNat]
  omega

theorem encode_compT_toNat (adc : U20) : (encode (.compT adc)).toNat = 0x40000000 + adc.toNat := by
  simp only [encode, encodeA, append_toNat, BitVec.toNat_ofNat]
  omega

theorem encode_compP_toNat (adc : U20) : (encode (.compP adc)).toNat = 0x41000000 + adc.toNat := by
  simp only [encode, encodeA, append_toNat, BitVec.toNat_ofNat]
  omega

/-! ### Enumerant codes -/

theorem Mode.ofCode_code (m : Mode) : Mode.ofCode m.code = some m := by cases m <;> rfl

theorem Osrs.ofCode_code (c : Osrs) : Osrs.ofCode c.code = some c := by cases c <;> rfl

theorem Standby.ofCode_code (c : Standby) : Standby.ofCode c.code = some c := by cases c <;> rfl

theorem Filter.ofCode_code (c : Filter) : Filter.ofCode c.code = some c := by cases c <;> rfl

/-- A setter code stands for the enumerant that has it. -/
theorem Mode.ofCode_eq_some (c : BitVec 2) (m : Mode) : Mode.ofCode c = some m ↔ m.code = c := by
  revert c
  cases m <;> decide

theorem Osrs.ofCode_eq_some (c : BitVec 3) (o : Osrs) : Osrs.ofCode c = some o ↔ o.code = c := by
  revert c
  cases o <;> decide

theorem Standby.ofCode_eq_some (c : BitVec 3) (t : Standby) : Standby.ofCode c = some t ↔ t.code = c := by
  revert c
  cases t <;> decide

theorem Filter.ofCode_eq_some (c : BitVec 3) (f : Filter) : Filter.ofCode c = some f ↔ f.code = c := by
  revert c
  cases f <;> decide

/-- A code that is an enumerant's is at most the last one's. -/
theorem Osrs.isSome_ofCode (c : BitVec 3) : (Osrs.ofCode c).isSome = decide (c.toNat ≤ 5) := by
  revert c
  decide

theorem Filter.isSome_ofCode (c : BitVec 3) : (Filter.ofCode c).isSome = decide (c.toNat ≤ 4) := by
  revert c
  decide

theorem Standby.isSome_ofCode (c : BitVec 3) : (Standby.ofCode c).isSome = true := by
  revert c
  decide

theorem Osrs.exists_code (c : BitVec 3) (h : (Osrs.ofCode c).isSome = true) : ∃ o : Osrs, c = o.code := by
  obtain ⟨o, ho⟩ := Option.isSome_iff_exists.1 h
  exact ⟨o, ((Osrs.ofCode_eq_some c o).1 ho).symm⟩

theorem Filter.exists_code (c : BitVec 3) (h : (Filter.ofCode c).isSome = true) : ∃ f : Filter, c = f.code := by
  obtain ⟨f, hf⟩ := Option.isSome_iff_exists.1 h
  exact ⟨f, ((Filter.ofCode_eq_some c f).1 hf).symm⟩

theorem Standby.exists_code (c : BitVec 3) : ∃ t : Standby, c = t.code := by
  obtain ⟨t, ht⟩ := Option.isSome_iff_exists.1 (Standby.isSome_ofCode c)
  exact ⟨t, ((Standby.ofCode_eq_some c t).1 ht).symm⟩

end Sys2Proof
end

