-- ==== Sys2Proof/Laws/Compensation.lean ====
section
/-! SUPPORT. The 32-bit operations of the compensation formulas as exact integer arithmetic reduced by `wrap`, and the
three places where the pressure formula reads a word as unsigned: the division, the square and the quarter. -/

namespace Sys2Proof.Machine

theorem toInt_add_wrap (x y : BitVec 32) : (x + y).toInt = wrap (x.toInt + y.toInt) := by
  rw [BitVec.toInt_add]
  rfl

theorem toInt_sub_wrap (x y : BitVec 32) : (x - y).toInt = wrap (x.toInt - y.toInt) := by
  rw [BitVec.toInt_sub]
  rfl

theorem toInt_mul_wrap (x y : BitVec 32) : (x * y).toInt = wrap (x.toInt * y.toInt) := by
  rw [BitVec.toInt_mul]
  rfl

/-- An arithmetic right shift is a floor division (R10). -/
theorem toInt_sshiftRight_div (x : BitVec 32) (n : Nat) : (x.sshiftRight n).toInt = x.toInt / 2 ^ n := by
  rw [BitVec.toInt_sshiftRight, Int.shiftRight_eq_div_pow]
  simp

theorem toInt_double (x : BitVec 32) : (x <<< 1).toInt = wrap (x.toInt * 2) := by
  rw [show x <<< 1 = x * 2#32 from by rw [BitVec.shiftLeft_eq_mul_twoPow]; rfl, toInt_mul_wrap]
  rfl

theorem toInt_shiftLeft_16 (x : BitVec 32) : (x <<< 16).toInt = wrap (x.toInt * 65536) := by
  rw [show x <<< 16 = x * 65536#32 from by rw [BitVec.shiftLeft_eq_mul_twoPow]; rfl, toInt_mul_wrap]
  rfl

/-- An s16 coefficient keeps its value in 32 bits. -/
theorem toInt_coefficient (x : BitVec 16) : (x.signExtend 32).toInt = x.toInt := BitVec.toInt_signExtend_of_le (by omega)

/-- An unsigned value of fewer than 32 bits keeps its value as an s32. -/
theorem toInt_unsigned {n : Nat} (x : BitVec n) (h : n < 32) : (x.setWidth 32).toInt = x.toNat := by
  have h1 : 2 ^ n ≤ 2 ^ 31 := Nat.pow_le_pow_right (by omega) (by omega)
  have h2 : x.toNat < 2 ^ 31 := Nat.lt_of_lt_of_le x.isLt h1
  have h3 : (x.setWidth 32).toNat = x.toNat := by rw [BitVec.toNat_setWidth, Nat.mod_eq_of_lt (by omega)]
  rw [BitVec.toInt_eq_toNat_of_lt (by omega), h3]

theorem wrap_emod (x : Int) : wrap x % 4294967296 = x % 4294967296 := Int.bmod_emod

theorem wrap_add_wrap (x y : Int) : wrap (wrap x + y) = wrap (x + y) := Int.bmod_add_bmod

/-- The u32 reading of a word from its s32 reading. -/
theorem toNat_eq_toInt_emod (x : BitVec 32) : (x.toNat : Int) = x.toInt % 4294967296 := by
  have h : ((x.toNat : Int).bmod (2 ^ 32)) % 4294967296 = (x.toNat : Int) % 4294967296 := Int.bmod_emod
  have hlt := x.isLt
  rw [BitVec.toInt_eq_toNat_bmod, h]
  omega

/-- R89's division in exact integers. -/
theorem presQuotient_toNat (c d : U32) :
    ((presQuotient c d).toNat : Int) =
      if (c.toNat : Int) < 2147483648 then (c.toNat : Int) * 2 / (d.toNat : Int)
      else (c.toNat : Int) / (d.toNat : Int) * 2 % 4294967296 := by
  have hlt := c.isLt
  have h31 : (0x80000000#32 : BitVec 32).toNat = 2147483648 := by decide
  rw [presQuotient]
  by_cases hl : c.toNat < 2147483648
  · have hu : c.ult 0x80000000#32 = true := by rw [BitVec.ult, h31]; exact decide_eq_true hl
    have hi : (c.toNat : Int) < 2147483648 := by exact_mod_cast hl
    rw [if_pos hu, if_pos hi, BitVec.toNat_udiv, BitVec.toNat_shiftLeft, Nat.shiftLeft_eq, Nat.mod_eq_of_lt (by omega)]
    simp only [Nat.cast_mul, Nat.cast_ofNat, Int.natCast_ediv, Nat.pow_one]
  · have hu : ¬c.ult 0x80000000#32 = true := by rw [BitVec.ult, h31]; simpa using hl
    have hi : ¬(c.toNat : Int) < 2147483648 := by exact_mod_cast hl
    rw [if_neg hu, if_neg hi, BitVec.toNat_mul, BitVec.toNat_udiv, show (2#32 : BitVec 32).toNat = 2 by decide,
      show (2 ^ 32 : Nat) = 4294967296 by norm_num]
    simp only [Nat.cast_mul, Nat.cast_ofNat, Int.natCast_ediv, Int.natCast_emod]

/-- R90's square, read as s32: it is below 2^19. -/
theorem toInt_square (p : U32) :
    ((p >>> 3 * p >>> 3) >>> 13).toInt = ((p.toNat : Int) / 8 * ((p.toNat : Int) / 8)) % 4294967296 / 8192 := by
  have h13 : ((p >>> 3 * p >>> 3) >>> 13).toNat = (p >>> 3 * p >>> 3).toNat / 8192 := by
    rw [BitVec.toNat_ushiftRight, Nat.shiftRight_eq_div_pow]
  have hlt := (p >>> 3 * p >>> 3).isLt
  have hlt' : (p >>> 3 * p >>> 3).toNat / 8192 < 524288 := by omega
  rw [BitVec.toInt_eq_toNat_of_lt (by rw [h13]; omega), h13, BitVec.toNat_mul, BitVec.toNat_ushiftRight,
    Nat.shiftRight_eq_div_pow, show (2 ^ 32 : Nat) = 4294967296 by norm_num, show (2 ^ 3 : Nat) = 8 by norm_num]
  simp only [Nat.cast_mul, Nat.cast_ofNat, Int.natCast_ediv, Int.natCast_emod]

/-- R90's quarter, read as s32: it is below 2^30. -/
theorem toInt_quarter (p : U32) : (p >>> 2).toInt = (p.toNat : Int) / 4 := by
  have h2 : (p >>> 2).toNat = p.toNat / 4 := by rw [BitVec.toNat_ushiftRight, Nat.shiftRight_eq_div_pow]
  have hlt := p.isLt
  rw [BitVec.toInt_eq_toNat_of_lt (by rw [h2]; omega), h2]
  simp only [Nat.cast_ofNat, Int.natCast_ediv]

end Sys2Proof.Machine
end

