-- ==== Sys2Proof/Laws/State.lean ====
section
/-! SUPPORT. Beside State: for every named update, what each field holds after it, so that no proof unfolds a record
update. An update that branches has a lemma for each field it leaves alone. -/

namespace Sys2Proof.Machine

/-! ### log -/

@[simp] theorem State.log_lifecycle (s : State) (e : Event) : (s.log e).lifecycle = s.lifecycle := rfl

@[simp] theorem State.log_mode (s : State) (e : Event) : (s.log e).mode = s.mode := rfl

@[simp] theorem State.log_addrValid (s : State) (e : Event) : (s.log e).addrValid = s.addrValid := rfl

@[simp] theorem State.log_cal (s : State) (e : Event) : (s.log e).cal = s.cal := rfl

@[simp] theorem State.log_calValid (s : State) (e : Event) : (s.log e).calValid = s.calValid := rfl

@[simp] theorem State.log_tFine (s : State) (e : Event) : (s.log e).tFine = s.tFine := rfl

@[simp] theorem State.log_tFineValid (s : State) (e : Event) : (s.log e).tFineValid = s.tFineValid := rfl

@[simp] theorem State.log_pollBudget (s : State) (e : Event) : (s.log e).pollBudget = s.pollBudget := rfl

@[simp] theorem State.log_pstate (s : State) (e : Event) : (s.log e).pstate = s.pstate := rfl

@[simp] theorem State.log_fault (s : State) (e : Event) : (s.log e).fault = s.fault := rfl

@[simp] theorem State.log_faultCause (s : State) (e : Event) : (s.log e).faultCause = s.faultCause := rfl

@[simp] theorem State.log_params (s : State) (e : Event) : (s.log e).params = s.params := rfl

@[simp] theorem State.log_mem (s : State) (e : Event) : (s.log e).mem = s.mem := rfl

@[simp] theorem State.log_starting (s : State) (e : Event) : (s.log e).starting = s.starting := rfl

@[simp] theorem State.log_answers (s : State) (e : Event) : (s.log e).answers = s.answers := rfl

@[simp] theorem State.log_freeDraws (s : State) (e : Event) : (s.log e).freeDraws = s.freeDraws := rfl

@[simp] theorem State.log_host (s : State) (e : Event) : (s.log e).host = s.host := rfl

@[simp] theorem State.log_trace (s : State) (e : Event) : (s.log e).trace = s.trace ++ [e] := rfl

/-! ### respond -/

@[simp] theorem State.respond_lifecycle (s : State) (c : RspCode) (v : RspVal) : (s.respond c v).lifecycle = s.lifecycle := rfl

@[simp] theorem State.respond_mode (s : State) (c : RspCode) (v : RspVal) : (s.respond c v).mode = s.mode := rfl

@[simp] theorem State.respond_addrValid (s : State) (c : RspCode) (v : RspVal) : (s.respond c v).addrValid = s.addrValid := rfl

@[simp] theorem State.respond_cal (s : State) (c : RspCode) (v : RspVal) : (s.respond c v).cal = s.cal := rfl

@[simp] theorem State.respond_calValid (s : State) (c : RspCode) (v : RspVal) : (s.respond c v).calValid = s.calValid := rfl

@[simp] theorem State.respond_tFine (s : State) (c : RspCode) (v : RspVal) : (s.respond c v).tFine = s.tFine := rfl

@[simp] theorem State.respond_tFineValid (s : State) (c : RspCode) (v : RspVal) : (s.respond c v).tFineValid = s.tFineValid := rfl

@[simp] theorem State.respond_pollBudget (s : State) (c : RspCode) (v : RspVal) : (s.respond c v).pollBudget = s.pollBudget := rfl

@[simp] theorem State.respond_pstate (s : State) (c : RspCode) (v : RspVal) : (s.respond c v).pstate = s.pstate := rfl

@[simp] theorem State.respond_fault (s : State) (c : RspCode) (v : RspVal) : (s.respond c v).fault = s.fault := rfl

@[simp] theorem State.respond_faultCause (s : State) (c : RspCode) (v : RspVal) : (s.respond c v).faultCause = s.faultCause := rfl

@[simp] theorem State.respond_params (s : State) (c : RspCode) (v : RspVal) : (s.respond c v).params = s.params := rfl

@[simp] theorem State.respond_mem (s : State) (c : RspCode) (v : RspVal) : (s.respond c v).mem = s.mem := rfl

@[simp] theorem State.respond_starting (s : State) (c : RspCode) (v : RspVal) : (s.respond c v).starting = s.starting := rfl

@[simp] theorem State.respond_answers (s : State) (c : RspCode) (v : RspVal) : (s.respond c v).answers = s.answers := rfl

@[simp] theorem State.respond_freeDraws (s : State) (c : RspCode) (v : RspVal) : (s.respond c v).freeDraws = s.freeDraws := rfl

@[simp] theorem State.respond_host (s : State) (c : RspCode) (v : RspVal) : (s.respond c v).host = s.host := rfl

@[simp] theorem State.respond_trace (s : State) (c : RspCode) (v : RspVal) : (s.respond c v).trace = s.trace ++ [.rsp c v] := rfl

/-! ### enterFault -/

@[simp] theorem State.enterFault_lifecycle (s : State) (c : FaultCause) : (s.enterFault c).lifecycle = s.lifecycle := rfl

@[simp] theorem State.enterFault_mode (s : State) (c : FaultCause) : (s.enterFault c).mode = s.mode := rfl

@[simp] theorem State.enterFault_addrValid (s : State) (c : FaultCause) : (s.enterFault c).addrValid = s.addrValid := rfl

@[simp] theorem State.enterFault_cal (s : State) (c : FaultCause) : (s.enterFault c).cal = s.cal := rfl

@[simp] theorem State.enterFault_calValid (s : State) (c : FaultCause) : (s.enterFault c).calValid = s.calValid := rfl

@[simp] theorem State.enterFault_tFine (s : State) (c : FaultCause) : (s.enterFault c).tFine = s.tFine := rfl

@[simp] theorem State.enterFault_tFineValid (s : State) (c : FaultCause) : (s.enterFault c).tFineValid = s.tFineValid := rfl

@[simp] theorem State.enterFault_pollBudget (s : State) (c : FaultCause) : (s.enterFault c).pollBudget = s.pollBudget := rfl

@[simp] theorem State.enterFault_pstate (s : State) (c : FaultCause) : (s.enterFault c).pstate = s.pstate := rfl

@[simp] theorem State.enterFault_fault (s : State) (c : FaultCause) : (s.enterFault c).fault = true := rfl

@[simp] theorem State.enterFault_faultCause (s : State) (c : FaultCause) : (s.enterFault c).faultCause = c := rfl

@[simp] theorem State.enterFault_params (s : State) (c : FaultCause) : (s.enterFault c).params = s.params := rfl

@[simp] theorem State.enterFault_mem (s : State) (c : FaultCause) : (s.enterFault c).mem = s.mem := rfl

@[simp] theorem State.enterFault_starting (s : State) (c : FaultCause) : (s.enterFault c).starting = s.starting := rfl

@[simp] theorem State.enterFault_answers (s : State) (c : FaultCause) : (s.enterFault c).answers = s.answers := rfl

@[simp] theorem State.enterFault_freeDraws (s : State) (c : FaultCause) : (s.enterFault c).freeDraws = s.freeDraws := rfl

@[simp] theorem State.enterFault_host (s : State) (c : FaultCause) : (s.enterFault c).host = s.host := rfl

@[simp] theorem State.enterFault_trace (s : State) (c : FaultCause) : (s.enterFault c).trace = s.trace ++ [.rsp .faulted .absent] := rfl

/-! ### setSensorByte -/

@[simp] theorem State.setSensorByte_lifecycle (s : State) (a : Nat) (v : Byte) : (s.setSensorByte a v).lifecycle = s.lifecycle := rfl

@[simp] theorem State.setSensorByte_mode (s : State) (a : Nat) (v : Byte) : (s.setSensorByte a v).mode = s.mode := rfl

@[simp] theorem State.setSensorByte_addrValid (s : State) (a : Nat) (v : Byte) : (s.setSensorByte a v).addrValid = s.addrValid := rfl

@[simp] theorem State.setSensorByte_cal (s : State) (a : Nat) (v : Byte) : (s.setSensorByte a v).cal = s.cal := rfl

@[simp] theorem State.setSensorByte_calValid (s : State) (a : Nat) (v : Byte) : (s.setSensorByte a v).calValid = s.calValid := rfl

@[simp] theorem State.setSensorByte_tFine (s : State) (a : Nat) (v : Byte) : (s.setSensorByte a v).tFine = s.tFine := rfl

@[simp] theorem State.setSensorByte_tFineValid (s : State) (a : Nat) (v : Byte) : (s.setSensorByte a v).tFineValid = s.tFineValid := rfl

@[simp] theorem State.setSensorByte_pollBudget (s : State) (a : Nat) (v : Byte) : (s.setSensorByte a v).pollBudget = s.pollBudget := rfl

@[simp] theorem State.setSensorByte_pstate (s : State) (a : Nat) (v : Byte) : (s.setSensorByte a v).pstate = s.pstate := rfl

@[simp] theorem State.setSensorByte_fault (s : State) (a : Nat) (v : Byte) : (s.setSensorByte a v).fault = s.fault := rfl

@[simp] theorem State.setSensorByte_faultCause (s : State) (a : Nat) (v : Byte) : (s.setSensorByte a v).faultCause = s.faultCause := rfl

@[simp] theorem State.setSensorByte_params (s : State) (a : Nat) (v : Byte) : (s.setSensorByte a v).params = s.params := rfl

@[simp] theorem State.setSensorByte_mem (s : State) (a : Nat) (v : Byte) : (s.setSensorByte a v).mem = Memory.write s.mem a v := rfl

@[simp] theorem State.setSensorByte_starting (s : State) (a : Nat) (v : Byte) : (s.setSensorByte a v).starting = s.starting := rfl

@[simp] theorem State.setSensorByte_answers (s : State) (a : Nat) (v : Byte) : (s.setSensorByte a v).answers = s.answers := rfl

@[simp] theorem State.setSensorByte_freeDraws (s : State) (a : Nat) (v : Byte) : (s.setSensorByte a v).freeDraws = s.freeDraws := rfl

@[simp] theorem State.setSensorByte_host (s : State) (a : Nat) (v : Byte) : (s.setSensorByte a v).host = s.host := rfl

@[simp] theorem State.setSensorByte_trace (s : State) (a : Nat) (v : Byte) : (s.setSensorByte a v).trace = s.trace := rfl

/-! ### settle -/

@[simp] theorem State.settle_lifecycle (s : State) : (s.settle).lifecycle = s.lifecycle := rfl

@[simp] theorem State.settle_mode (s : State) : (s.settle).mode = s.mode := rfl

@[simp] theorem State.settle_addrValid (s : State) : (s.settle).addrValid = s.addrValid := rfl

@[simp] theorem State.settle_cal (s : State) : (s.settle).cal = s.cal := rfl

@[simp] theorem State.settle_calValid (s : State) : (s.settle).calValid = s.calValid := rfl

@[simp] theorem State.settle_tFine (s : State) : (s.settle).tFine = s.tFine := rfl

@[simp] theorem State.settle_tFineValid (s : State) : (s.settle).tFineValid = s.tFineValid := rfl

@[simp] theorem State.settle_pollBudget (s : State) : (s.settle).pollBudget = s.pollBudget := rfl

@[simp] theorem State.settle_pstate (s : State) : (s.settle).pstate = s.pstate := rfl

@[simp] theorem State.settle_fault (s : State) : (s.settle).fault = s.fault := rfl

@[simp] theorem State.settle_faultCause (s : State) : (s.settle).faultCause = s.faultCause := rfl

@[simp] theorem State.settle_params (s : State) : (s.settle).params = s.params := rfl

@[simp] theorem State.settle_mem (s : State) : (s.settle).mem = s.mem := rfl

@[simp] theorem State.settle_starting (s : State) : (s.settle).starting = false := rfl

@[simp] theorem State.settle_answers (s : State) : (s.settle).answers = s.answers := rfl

@[simp] theorem State.settle_freeDraws (s : State) : (s.settle).freeDraws = s.freeDraws := rfl

@[simp] theorem State.settle_host (s : State) : (s.settle).host = s.host := rfl

@[simp] theorem State.settle_trace (s : State) : (s.settle).trace = s.trace := rfl

/-! ### issue -/

@[simp] theorem State.issue_lifecycle (s : State) (w : Word) : (s.issue w).lifecycle = s.lifecycle := rfl

@[simp] theorem State.issue_mode (s : State) (w : Word) : (s.issue w).mode = s.mode := rfl

@[simp] theorem State.issue_addrValid (s : State) (w : Word) : (s.issue w).addrValid = s.addrValid := rfl

@[simp] theorem State.issue_cal (s : State) (w : Word) : (s.issue w).cal = s.cal := rfl

@[simp] theorem State.issue_calValid (s : State) (w : Word) : (s.issue w).calValid = s.calValid := rfl

@[simp] theorem State.issue_tFine (s : State) (w : Word) : (s.issue w).tFine = s.tFine := rfl

@[simp] theorem State.issue_tFineValid (s : State) (w : Word) : (s.issue w).tFineValid = s.tFineValid := rfl

@[simp] theorem State.issue_pollBudget (s : State) (w : Word) : (s.issue w).pollBudget = s.pollBudget := rfl

@[simp] theorem State.issue_pstate (s : State) (w : Word) : (s.issue w).pstate = s.pstate := rfl

@[simp] theorem State.issue_fault (s : State) (w : Word) : (s.issue w).fault = s.fault := rfl

@[simp] theorem State.issue_faultCause (s : State) (w : Word) : (s.issue w).faultCause = s.faultCause := rfl

@[simp] theorem State.issue_params (s : State) (w : Word) : (s.issue w).params = s.params := rfl

@[simp] theorem State.issue_mem (s : State) (w : Word) : (s.issue w).mem = s.mem := rfl

@[simp] theorem State.issue_starting (s : State) (w : Word) : (s.issue w).starting = s.starting := rfl

@[simp] theorem State.issue_answers (s : State) (w : Word) : (s.issue w).answers = s.answers := rfl

@[simp] theorem State.issue_freeDraws (s : State) (w : Word) : (s.issue w).freeDraws = s.freeDraws := rfl

@[simp] theorem State.issue_host (s : State) (w : Word) : (s.issue w).host = w :: s.host := rfl

@[simp] theorem State.issue_trace (s : State) (w : Word) : (s.issue w).trace = s.trace := rfl

/-! ### sensorReset -/

@[simp] theorem State.sensorReset_lifecycle (s : State) : (s.sensorReset).lifecycle = s.lifecycle := rfl

@[simp] theorem State.sensorReset_mode (s : State) : (s.sensorReset).mode = s.mode := rfl

@[simp] theorem State.sensorReset_addrValid (s : State) : (s.sensorReset).addrValid = s.addrValid := rfl

@[simp] theorem State.sensorReset_cal (s : State) : (s.sensorReset).cal = s.cal := rfl

@[simp] theorem State.sensorReset_calValid (s : State) : (s.sensorReset).calValid = s.calValid := rfl

@[simp] theorem State.sensorReset_tFine (s : State) : (s.sensorReset).tFine = s.tFine := rfl

@[simp] theorem State.sensorReset_tFineValid (s : State) : (s.sensorReset).tFineValid = s.tFineValid := rfl

@[simp] theorem State.sensorReset_pollBudget (s : State) : (s.sensorReset).pollBudget = s.pollBudget := rfl

@[simp] theorem State.sensorReset_pstate (s : State) : (s.sensorReset).pstate = s.pstate := rfl

@[simp] theorem State.sensorReset_fault (s : State) : (s.sensorReset).fault = s.fault := rfl

@[simp] theorem State.sensorReset_faultCause (s : State) : (s.sensorReset).faultCause = s.faultCause := rfl

@[simp] theorem State.sensorReset_params (s : State) : (s.sensorReset).params = s.params := rfl

@[simp] theorem State.sensorReset_mem (s : State) : (s.sensorReset).mem = Memory.write (Memory.write s.mem 0xF4 0x00#8) 0xF5 0x00#8 := rfl

@[simp] theorem State.sensorReset_starting (s : State) : (s.sensorReset).starting = (s.params.startupDelayMs != 0#32) := rfl

@[simp] theorem State.sensorReset_answers (s : State) : (s.sensorReset).answers = s.answers := rfl

@[simp] theorem State.sensorReset_freeDraws (s : State) : (s.sensorReset).freeDraws = s.freeDraws := rfl

@[simp] theorem State.sensorReset_host (s : State) : (s.sensorReset).host = s.host := rfl

@[simp] theorem State.sensorReset_trace (s : State) : (s.sensorReset).trace = s.trace := rfl

/-! ### nextAnswer -/

@[simp] theorem State.nextAnswer_lifecycle (s : State) : (s.nextAnswer.2).lifecycle = s.lifecycle := by
  unfold State.nextAnswer; split <;> rfl

@[simp] theorem State.nextAnswer_mode (s : State) : (s.nextAnswer.2).mode = s.mode := by
  unfold State.nextAnswer; split <;> rfl

@[simp] theorem State.nextAnswer_addrValid (s : State) : (s.nextAnswer.2).addrValid = s.addrValid := by
  unfold State.nextAnswer; split <;> rfl

@[simp] theorem State.nextAnswer_cal (s : State) : (s.nextAnswer.2).cal = s.cal := by
  unfold State.nextAnswer; split <;> rfl

@[simp] theorem State.nextAnswer_calValid (s : State) : (s.nextAnswer.2).calValid = s.calValid := by
  unfold State.nextAnswer; split <;> rfl

@[simp] theorem State.nextAnswer_tFine (s : State) : (s.nextAnswer.2).tFine = s.tFine := by
  unfold State.nextAnswer; split <;> rfl

@[simp] theorem State.nextAnswer_tFineValid (s : State) : (s.nextAnswer.2).tFineValid = s.tFineValid := by
  unfold State.nextAnswer; split <;> rfl

@[simp] theorem State.nextAnswer_pollBudget (s : State) : (s.nextAnswer.2).pollBudget = s.pollBudget := by
  unfold State.nextAnswer; split <;> rfl

@[simp] theorem State.nextAnswer_pstate (s : State) : (s.nextAnswer.2).pstate = s.pstate := by
  unfold State.nextAnswer; split <;> rfl

@[simp] theorem State.nextAnswer_fault (s : State) : (s.nextAnswer.2).fault = s.fault := by
  unfold State.nextAnswer; split <;> rfl

@[simp] theorem State.nextAnswer_faultCause (s : State) : (s.nextAnswer.2).faultCause = s.faultCause := by
  unfold State.nextAnswer; split <;> rfl

@[simp] theorem State.nextAnswer_params (s : State) : (s.nextAnswer.2).params = s.params := by
  unfold State.nextAnswer; split <;> rfl

@[simp] theorem State.nextAnswer_mem (s : State) : (s.nextAnswer.2).mem = s.mem := by
  unfold State.nextAnswer; split <;> rfl

@[simp] theorem State.nextAnswer_starting (s : State) : (s.nextAnswer.2).starting = s.starting := by
  unfold State.nextAnswer; split <;> rfl

@[simp] theorem State.nextAnswer_host (s : State) : (s.nextAnswer.2).host = s.host := by
  unfold State.nextAnswer; split <;> rfl

@[simp] theorem State.nextAnswer_trace (s : State) : (s.nextAnswer.2).trace = s.trace := by
  unfold State.nextAnswer; split <;> rfl

/-! ### completeForced -/

@[simp] theorem State.completeForced_lifecycle (s : State) : (s.completeForced).lifecycle = s.lifecycle := by
  unfold State.completeForced; split <;> [split <;> rfl; rfl]

@[simp] theorem State.completeForced_mode (s : State) : (s.completeForced).mode = s.mode := by
  unfold State.completeForced; split <;> [split <;> rfl; rfl]

@[simp] theorem State.completeForced_addrValid (s : State) : (s.completeForced).addrValid = s.addrValid := by
  unfold State.completeForced; split <;> [split <;> rfl; rfl]

@[simp] theorem State.completeForced_cal (s : State) : (s.completeForced).cal = s.cal := by
  unfold State.completeForced; split <;> [split <;> rfl; rfl]

@[simp] theorem State.completeForced_calValid (s : State) : (s.completeForced).calValid = s.calValid := by
  unfold State.completeForced; split <;> [split <;> rfl; rfl]

@[simp] theorem State.completeForced_tFine (s : State) : (s.completeForced).tFine = s.tFine := by
  unfold State.completeForced; split <;> [split <;> rfl; rfl]

@[simp] theorem State.completeForced_tFineValid (s : State) : (s.completeForced).tFineValid = s.tFineValid := by
  unfold State.completeForced; split <;> [split <;> rfl; rfl]

@[simp] theorem State.completeForced_pollBudget (s : State) : (s.completeForced).pollBudget = s.pollBudget := by
  unfold State.completeForced; split <;> [split <;> rfl; rfl]

@[simp] theorem State.completeForced_pstate (s : State) : (s.completeForced).pstate = s.pstate := by
  unfold State.completeForced; split <;> [split <;> rfl; rfl]

@[simp] theorem State.completeForced_fault (s : State) : (s.completeForced).fault = s.fault := by
  unfold State.completeForced; split <;> [split <;> rfl; rfl]

@[simp] theorem State.completeForced_faultCause (s : State) : (s.completeForced).faultCause = s.faultCause := by
  unfold State.completeForced; split <;> [split <;> rfl; rfl]

@[simp] theorem State.completeForced_params (s : State) : (s.completeForced).params = s.params := by
  unfold State.completeForced; split <;> [split <;> rfl; rfl]

@[simp] theorem State.completeForced_starting (s : State) : (s.completeForced).starting = s.starting := by
  unfold State.completeForced; split <;> [split <;> rfl; rfl]

@[simp] theorem State.completeForced_answers (s : State) : (s.completeForced).answers = s.answers := by
  unfold State.completeForced; split <;> [split <;> rfl; rfl]

@[simp] theorem State.completeForced_freeDraws (s : State) : (s.completeForced).freeDraws = s.freeDraws := by
  unfold State.completeForced; split <;> [split <;> rfl; rfl]

@[simp] theorem State.completeForced_host (s : State) : (s.completeForced).host = s.host := by
  unfold State.completeForced; split <;> [split <;> rfl; rfl]

@[simp] theorem State.completeForced_trace (s : State) : (s.completeForced).trace = s.trace := by
  unfold State.completeForced; split <;> [split <;> rfl; rfl]

/-! ### waited -/

@[simp] theorem State.waited_lifecycle (s : State) (ms : U32) : (s.waited ms).lifecycle = s.lifecycle := by
  unfold State.waited; split <;> rfl

@[simp] theorem State.waited_mode (s : State) (ms : U32) : (s.waited ms).mode = s.mode := by
  unfold State.waited; split <;> rfl

@[simp] theorem State.waited_addrValid (s : State) (ms : U32) : (s.waited ms).addrValid = s.addrValid := by
  unfold State.waited; split <;> rfl

@[simp] theorem State.waited_cal (s : State) (ms : U32) : (s.waited ms).cal = s.cal := by
  unfold State.waited; split <;> rfl

@[simp] theorem State.waited_calValid (s : State) (ms : U32) : (s.waited ms).calValid = s.calValid := by
  unfold State.waited; split <;> rfl

@[simp] theorem State.waited_tFine (s : State) (ms : U32) : (s.waited ms).tFine = s.tFine := by
  unfold State.waited; split <;> rfl

@[simp] theorem State.waited_tFineValid (s : State) (ms : U32) : (s.waited ms).tFineValid = s.tFineValid := by
  unfold State.waited; split <;> rfl

@[simp] theorem State.waited_pollBudget (s : State) (ms : U32) : (s.waited ms).pollBudget = s.pollBudget := by
  unfold State.waited; split <;> rfl

@[simp] theorem State.waited_pstate (s : State) (ms : U32) : (s.waited ms).pstate = s.pstate := by
  unfold State.waited; split <;> rfl

@[simp] theorem State.waited_fault (s : State) (ms : U32) : (s.waited ms).fault = s.fault := by
  unfold State.waited; split <;> rfl

@[simp] theorem State.waited_faultCause (s : State) (ms : U32) : (s.waited ms).faultCause = s.faultCause := by
  unfold State.waited; split <;> rfl

@[simp] theorem State.waited_params (s : State) (ms : U32) : (s.waited ms).params = s.params := by
  unfold State.waited; split <;> rfl

@[simp] theorem State.waited_mem (s : State) (ms : U32) : (s.waited ms).mem = s.mem := by
  unfold State.waited; split <;> rfl

@[simp] theorem State.waited_answers (s : State) (ms : U32) : (s.waited ms).answers = s.answers := by
  unfold State.waited; split <;> rfl

@[simp] theorem State.waited_freeDraws (s : State) (ms : U32) : (s.waited ms).freeDraws = s.freeDraws := by
  unfold State.waited; split <;> rfl

@[simp] theorem State.waited_host (s : State) (ms : U32) : (s.waited ms).host = s.host := by
  unfold State.waited; split <;> rfl

@[simp] theorem State.waited_trace (s : State) (ms : U32) : (s.waited ms).trace = s.trace := by
  unfold State.waited; split <;> rfl

/-! ### beforeRead -/

@[simp] theorem State.beforeRead_lifecycle (s : State) (a : Answer) (reg : Byte) (n : Nat) : (s.beforeRead a reg n).lifecycle = s.lifecycle := by
  unfold State.beforeRead; split <;> dsimp only <;> split <;> simp

@[simp] theorem State.beforeRead_mode (s : State) (a : Answer) (reg : Byte) (n : Nat) : (s.beforeRead a reg n).mode = s.mode := by
  unfold State.beforeRead; split <;> dsimp only <;> split <;> simp

@[simp] theorem State.beforeRead_addrValid (s : State) (a : Answer) (reg : Byte) (n : Nat) : (s.beforeRead a reg n).addrValid = s.addrValid := by
  unfold State.beforeRead; split <;> dsimp only <;> split <;> simp

@[simp] theorem State.beforeRead_cal (s : State) (a : Answer) (reg : Byte) (n : Nat) : (s.beforeRead a reg n).cal = s.cal := by
  unfold State.beforeRead; split <;> dsimp only <;> split <;> simp

@[simp] theorem State.beforeRead_calValid (s : State) (a : Answer) (reg : Byte) (n : Nat) : (s.beforeRead a reg n).calValid = s.calValid := by
  unfold State.beforeRead; split <;> dsimp only <;> split <;> simp

@[simp] theorem State.beforeRead_tFine (s : State) (a : Answer) (reg : Byte) (n : Nat) : (s.beforeRead a reg n).tFine = s.tFine := by
  unfold State.beforeRead; split <;> dsimp only <;> split <;> simp

@[simp] theorem State.beforeRead_tFineValid (s : State) (a : Answer) (reg : Byte) (n : Nat) : (s.beforeRead a reg n).tFineValid = s.tFineValid := by
  unfold State.beforeRead; split <;> dsimp only <;> split <;> simp

@[simp] theorem State.beforeRead_pollBudget (s : State) (a : Answer) (reg : Byte) (n : Nat) : (s.beforeRead a reg n).pollBudget = s.pollBudget := by
  unfold State.beforeRead; split <;> dsimp only <;> split <;> simp

@[simp] theorem State.beforeRead_pstate (s : State) (a : Answer) (reg : Byte) (n : Nat) : (s.beforeRead a reg n).pstate = s.pstate := by
  unfold State.beforeRead; split <;> dsimp only <;> split <;> simp

@[simp] theorem State.beforeRead_fault (s : State) (a : Answer) (reg : Byte) (n : Nat) : (s.beforeRead a reg n).fault = s.fault := by
  unfold State.beforeRead; split <;> dsimp only <;> split <;> simp

@[simp] theorem State.beforeRead_faultCause (s : State) (a : Answer) (reg : Byte) (n : Nat) : (s.beforeRead a reg n).faultCause = s.faultCause := by
  unfold State.beforeRead; split <;> dsimp only <;> split <;> simp

@[simp] theorem State.beforeRead_params (s : State) (a : Answer) (reg : Byte) (n : Nat) : (s.beforeRead a reg n).params = s.params := by
  unfold State.beforeRead; split <;> dsimp only <;> split <;> simp

@[simp] theorem State.beforeRead_answers (s : State) (a : Answer) (reg : Byte) (n : Nat) : (s.beforeRead a reg n).answers = s.answers := by
  unfold State.beforeRead; split <;> dsimp only <;> split <;> simp

@[simp] theorem State.beforeRead_freeDraws (s : State) (a : Answer) (reg : Byte) (n : Nat) : (s.beforeRead a reg n).freeDraws = s.freeDraws := by
  unfold State.beforeRead; split <;> dsimp only <;> split <;> simp

@[simp] theorem State.beforeRead_host (s : State) (a : Answer) (reg : Byte) (n : Nat) : (s.beforeRead a reg n).host = s.host := by
  unfold State.beforeRead; split <;> dsimp only <;> split <;> simp

@[simp] theorem State.beforeRead_trace (s : State) (a : Answer) (reg : Byte) (n : Nat) : (s.beforeRead a reg n).trace = s.trace := by
  unfold State.beforeRead; split <;> dsimp only <;> split <;> simp

/-! ### acceptByte -/

@[simp] theorem State.acceptByte_lifecycle (s : State) (a : Nat) (v : Byte) : (s.acceptByte a v).lifecycle = s.lifecycle := by
  unfold State.acceptByte; split <;> [rfl; (split <;> rfl)]

@[simp] theorem State.acceptByte_mode (s : State) (a : Nat) (v : Byte) : (s.acceptByte a v).mode = s.mode := by
  unfold State.acceptByte; split <;> [rfl; (split <;> rfl)]

@[simp] theorem State.acceptByte_addrValid (s : State) (a : Nat) (v : Byte) : (s.acceptByte a v).addrValid = s.addrValid := by
  unfold State.acceptByte; split <;> [rfl; (split <;> rfl)]

@[simp] theorem State.acceptByte_cal (s : State) (a : Nat) (v : Byte) : (s.acceptByte a v).cal = s.cal := by
  unfold State.acceptByte; split <;> [rfl; (split <;> rfl)]

@[simp] theorem State.acceptByte_calValid (s : State) (a : Nat) (v : Byte) : (s.acceptByte a v).calValid = s.calValid := by
  unfold State.acceptByte; split <;> [rfl; (split <;> rfl)]

@[simp] theorem State.acceptByte_tFine (s : State) (a : Nat) (v : Byte) : (s.acceptByte a v).tFine = s.tFine := by
  unfold State.acceptByte; split <;> [rfl; (split <;> rfl)]

@[simp] theorem State.acceptByte_tFineValid (s : State) (a : Nat) (v : Byte) : (s.acceptByte a v).tFineValid = s.tFineValid := by
  unfold State.acceptByte; split <;> [rfl; (split <;> rfl)]

@[simp] theorem State.acceptByte_pollBudget (s : State) (a : Nat) (v : Byte) : (s.acceptByte a v).pollBudget = s.pollBudget := by
  unfold State.acceptByte; split <;> [rfl; (split <;> rfl)]

@[simp] theorem State.acceptByte_pstate (s : State) (a : Nat) (v : Byte) : (s.acceptByte a v).pstate = s.pstate := by
  unfold State.acceptByte; split <;> [rfl; (split <;> rfl)]

@[simp] theorem State.acceptByte_fault (s : State) (a : Nat) (v : Byte) : (s.acceptByte a v).fault = s.fault := by
  unfold State.acceptByte; split <;> [rfl; (split <;> rfl)]

@[simp] theorem State.acceptByte_faultCause (s : State) (a : Nat) (v : Byte) : (s.acceptByte a v).faultCause = s.faultCause := by
  unfold State.acceptByte; split <;> [rfl; (split <;> rfl)]

@[simp] theorem State.acceptByte_params (s : State) (a : Nat) (v : Byte) : (s.acceptByte a v).params = s.params := by
  unfold State.acceptByte; split <;> [rfl; (split <;> rfl)]

@[simp] theorem State.acceptByte_answers (s : State) (a : Nat) (v : Byte) : (s.acceptByte a v).answers = s.answers := by
  unfold State.acceptByte; split <;> [rfl; (split <;> rfl)]

@[simp] theorem State.acceptByte_freeDraws (s : State) (a : Nat) (v : Byte) : (s.acceptByte a v).freeDraws = s.freeDraws := by
  unfold State.acceptByte; split <;> [rfl; (split <;> rfl)]

@[simp] theorem State.acceptByte_host (s : State) (a : Nat) (v : Byte) : (s.acceptByte a v).host = s.host := by
  unfold State.acceptByte; split <;> [rfl; (split <;> rfl)]

@[simp] theorem State.acceptByte_trace (s : State) (a : Nat) (v : Byte) : (s.acceptByte a v).trace = s.trace := by
  unfold State.acceptByte; split <;> [rfl; (split <;> rfl)]

/-! ### acceptBytes -/

@[simp] theorem State.acceptBytes_lifecycle (s : State) (a : Nat) (bs : List Byte) : (s.acceptBytes a bs).lifecycle = s.lifecycle := by
  induction bs generalizing s a with
  | nil => rfl
  | cons b bs ih => simp [State.acceptBytes, ih]

@[simp] theorem State.acceptBytes_mode (s : State) (a : Nat) (bs : List Byte) : (s.acceptBytes a bs).mode = s.mode := by
  induction bs generalizing s a with
  | nil => rfl
  | cons b bs ih => simp [State.acceptBytes, ih]

@[simp] theorem State.acceptBytes_addrValid (s : State) (a : Nat) (bs : List Byte) : (s.acceptBytes a bs).addrValid = s.addrValid := by
  induction bs generalizing s a with
  | nil => rfl
  | cons b bs ih => simp [State.acceptBytes, ih]

@[simp] theorem State.acceptBytes_cal (s : State) (a : Nat) (bs : List Byte) : (s.acceptBytes a bs).cal = s.cal := by
  induction bs generalizing s a with
  | nil => rfl
  | cons b bs ih => simp [State.acceptBytes, ih]

@[simp] theorem State.acceptBytes_calValid (s : State) (a : Nat) (bs : List Byte) : (s.acceptBytes a bs).calValid = s.calValid := by
  induction bs generalizing s a with
  | nil => rfl
  | cons b bs ih => simp [State.acceptBytes, ih]

@[simp] theorem State.acceptBytes_tFine (s : State) (a : Nat) (bs : List Byte) : (s.acceptBytes a bs).tFine = s.tFine := by
  induction bs generalizing s a with
  | nil => rfl
  | cons b bs ih => simp [State.acceptBytes, ih]

@[simp] theorem State.acceptBytes_tFineValid (s : State) (a : Nat) (bs : List Byte) : (s.acceptBytes a bs).tFineValid = s.tFineValid := by
  induction bs generalizing s a with
  | nil => rfl
  | cons b bs ih => simp [State.acceptBytes, ih]

@[simp] theorem State.acceptBytes_pollBudget (s : State) (a : Nat) (bs : List Byte) : (s.acceptBytes a bs).pollBudget = s.pollBudget := by
  induction bs generalizing s a with
  | nil => rfl
  | cons b bs ih => simp [State.acceptBytes, ih]

@[simp] theorem State.acceptBytes_pstate (s : State) (a : Nat) (bs : List Byte) : (s.acceptBytes a bs).pstate = s.pstate := by
  induction bs generalizing s a with
  | nil => rfl
  | cons b bs ih => simp [State.acceptBytes, ih]

@[simp] theorem State.acceptBytes_fault (s : State) (a : Nat) (bs : List Byte) : (s.acceptBytes a bs).fault = s.fault := by
  induction bs generalizing s a with
  | nil => rfl
  | cons b bs ih => simp [State.acceptBytes, ih]

@[simp] theorem State.acceptBytes_faultCause (s : State) (a : Nat) (bs : List Byte) : (s.acceptBytes a bs).faultCause = s.faultCause := by
  induction bs generalizing s a with
  | nil => rfl
  | cons b bs ih => simp [State.acceptBytes, ih]

@[simp] theorem State.acceptBytes_params (s : State) (a : Nat) (bs : List Byte) : (s.acceptBytes a bs).params = s.params := by
  induction bs generalizing s a with
  | nil => rfl
  | cons b bs ih => simp [State.acceptBytes, ih]

@[simp] theorem State.acceptBytes_answers (s : State) (a : Nat) (bs : List Byte) : (s.acceptBytes a bs).answers = s.answers := by
  induction bs generalizing s a with
  | nil => rfl
  | cons b bs ih => simp [State.acceptBytes, ih]

@[simp] theorem State.acceptBytes_freeDraws (s : State) (a : Nat) (bs : List Byte) : (s.acceptBytes a bs).freeDraws = s.freeDraws := by
  induction bs generalizing s a with
  | nil => rfl
  | cons b bs ih => simp [State.acceptBytes, ih]

@[simp] theorem State.acceptBytes_host (s : State) (a : Nat) (bs : List Byte) : (s.acceptBytes a bs).host = s.host := by
  induction bs generalizing s a with
  | nil => rfl
  | cons b bs ih => simp [State.acceptBytes, ih]

@[simp] theorem State.acceptBytes_trace (s : State) (a : Nat) (bs : List Byte) : (s.acceptBytes a bs).trace = s.trace := by
  induction bs generalizing s a with
  | nil => rfl
  | cons b bs ih => simp [State.acceptBytes, ih]

/-! ### rejectWord -/

@[simp] theorem State.rejectWord_lifecycle (s : State) : (s.rejectWord).lifecycle = s.lifecycle := by
  unfold State.rejectWord; split <;> rfl

@[simp] theorem State.rejectWord_mode (s : State) : (s.rejectWord).mode = s.mode := by
  unfold State.rejectWord; split <;> rfl

@[simp] theorem State.rejectWord_addrValid (s : State) : (s.rejectWord).addrValid = s.addrValid := by
  unfold State.rejectWord; split <;> rfl

@[simp] theorem State.rejectWord_cal (s : State) : (s.rejectWord).cal = s.cal := by
  unfold State.rejectWord; split <;> rfl

@[simp] theorem State.rejectWord_calValid (s : State) : (s.rejectWord).calValid = s.calValid := by
  unfold State.rejectWord; split <;> rfl

@[simp] theorem State.rejectWord_tFine (s : State) : (s.rejectWord).tFine = s.tFine := by
  unfold State.rejectWord; split <;> rfl

@[simp] theorem State.rejectWord_tFineValid (s : State) : (s.rejectWord).tFineValid = s.tFineValid := by
  unfold State.rejectWord; split <;> rfl

@[simp] theorem State.rejectWord_pollBudget (s : State) : (s.rejectWord).pollBudget = s.pollBudget := by
  unfold State.rejectWord; split <;> rfl

@[simp] theorem State.rejectWord_pstate (s : State) : (s.rejectWord).pstate = s.pstate := by
  unfold State.rejectWord; split <;> rfl

@[simp] theorem State.rejectWord_fault (s : State) : (s.rejectWord).fault = s.fault := by
  unfold State.rejectWord; split <;> rfl

@[simp] theorem State.rejectWord_faultCause (s : State) : (s.rejectWord).faultCause = s.faultCause := by
  unfold State.rejectWord; split <;> rfl

@[simp] theorem State.rejectWord_params (s : State) : (s.rejectWord).params = s.params := by
  unfold State.rejectWord; split <;> rfl

@[simp] theorem State.rejectWord_mem (s : State) : (s.rejectWord).mem = s.mem := by
  unfold State.rejectWord; split <;> rfl

@[simp] theorem State.rejectWord_starting (s : State) : (s.rejectWord).starting = s.starting := by
  unfold State.rejectWord; split <;> rfl

@[simp] theorem State.rejectWord_answers (s : State) : (s.rejectWord).answers = s.answers := by
  unfold State.rejectWord; split <;> rfl

@[simp] theorem State.rejectWord_freeDraws (s : State) : (s.rejectWord).freeDraws = s.freeDraws := by
  unfold State.rejectWord; split <;> rfl

@[simp] theorem State.rejectWord_host (s : State) : (s.rejectWord).host = s.host := by
  unfold State.rejectWord; split <;> rfl

/-! ### A word taken from the host -/

theorem State.takeWord_nil (s : State) (h : s.host = []) : s.takeWord = none := by
  unfold State.takeWord; rw [h]

theorem State.takeWord_cons (s : State) (w : Word) (rest : List Word) (h : s.host = w :: rest) :
    s.takeWord = some (w, { s with host := rest }.log (.cmd w)) := by
  unfold State.takeWord; rw [h]

/-! ### The next answer -/

theorem State.nextAnswer_cons (s : State) (a : Answer) (rest : List Answer) (h : s.answers = a :: rest) :
    s.nextAnswer = (a, { s with answers := rest }) := by
  unfold State.nextAnswer; rw [h]

theorem State.nextAnswer_nil (s : State) (h : s.answers = []) :
    s.nextAnswer = (Config.freeAnswer s.freeDraws, { s with freeDraws := s.freeDraws + 1 }) := by
  unfold State.nextAnswer; rw [h]

/-! ### The pieces of an update that may change only the sensor -/

theorem State.beforeRead_eq (s : State) (a : Answer) (reg : Byte) (n : Nat) :
    s.beforeRead a reg n = { s with mem := (s.beforeRead a reg n).mem, starting := (s.beforeRead a reg n).starting } := by
  unfold State.beforeRead State.completeForced
  split <;> dsimp only <;> split <;> (try split) <;> (try split) <;> rfl

theorem State.acceptByte_eq (s : State) (a : Nat) (v : Byte) :
    s.acceptByte a v = { s with mem := (s.acceptByte a v).mem, starting := (s.acceptByte a v).starting } := by
  unfold State.acceptByte
  split <;> [rfl; (split <;> rfl)]

theorem State.acceptBytes_eq (s : State) (a : Nat) (bs : List Byte) :
    s.acceptBytes a bs = { s with mem := (s.acceptBytes a bs).mem, starting := (s.acceptBytes a bs).starting } := by
  induction bs generalizing s a with
  | nil => rfl
  | cons b bs ih =>
    simp only [State.acceptBytes]
    rw [ih]
    simp

theorem State.waited_eq (s : State) (ms : U32) : s.waited ms = { s with starting := (s.waited ms).starting } := by
  unfold State.waited
  split <;> rfl

end Sys2Proof.Machine
end

