-- ==== Sys2Proof/Laws/Memory.lean ====
section
/-! SUPPORT. The laws of the sensor's memory: a read after a write, and that every operation keeps the canonical form. -/

namespace Sys2Proof.Machine

/-! ### The list of cells -/

@[simp] theorem Memory.read_write_same (m : Memory) (a : Nat) (v : Byte) :
    Memory.read (Memory.write m a v) a = some v := by
  induction m with
  | nil => simp [Memory.write, Memory.read]
  | cons c m ih =>
    obtain ⟨k, b⟩ := c
    simp only [Memory.write]
    split
    · simp [Memory.read]
    · split
      · simp [Memory.read]
      · rename_i h
        simp [Memory.read, h, ih]

theorem Memory.read_write_other (m : Memory) (a b : Nat) (v : Byte) (h : b ≠ a) :
    Memory.read (Memory.write m a v) b = Memory.read m b := by
  induction m with
  | nil => simp [Memory.write, Memory.read, h]
  | cons c m ih =>
    obtain ⟨k, x⟩ := c
    simp only [Memory.write]
    split
    · simp [Memory.read, h]
    · split
      · rename_i hk
        subst hk
        simp [Memory.read, h]
      · simp [Memory.read, ih]

/-- The addresses of a written memory: the written one and those it had. -/
theorem Memory.mem_write (m : Memory) (a : Nat) (v : Byte) (c : Host.Cell) (h : c ∈ Memory.write m a v) :
    c = (a, v) ∨ c ∈ m := by
  induction m with
  | nil => simpa [Memory.write] using h
  | cons d m ih =>
    obtain ⟨k, x⟩ := d
    simp only [Memory.write] at h
    split at h
    · simpa using h
    · split at h
      · simp only [List.mem_cons] at h ⊢
        tauto
      · simp only [List.mem_cons] at h ⊢
        rcases h with h | h
        · exact .inr (.inl h)
        · rcases ih h with h | h
          · exact .inl h
          · exact .inr (.inr h)

theorem Memory.wf_write (m : Memory) (a : Nat) (v : Byte) (hm : m.wf) (ha : storedAddr a = true) :
    (Memory.write m a v).wf := by
  constructor
  · have hp := hm.1
    clear hm
    induction m with
    | nil => simp [Memory.write]
    | cons d m ih =>
      obtain ⟨k, x⟩ := d
      rw [List.pairwise_cons] at hp
      simp only [Memory.write]
      split
      · rename_i hk
        refine List.pairwise_cons.2 ⟨fun c hc => ?_, List.pairwise_cons.2 hp⟩
        rcases List.mem_cons.1 hc with hc | hc
        · subst hc; exact hk
        · exact Nat.lt_trans hk (hp.1 c hc)
      · split
        · rename_i hk
          subst hk
          exact List.pairwise_cons.2 ⟨hp.1, hp.2⟩
        · rename_i h1 h2
          refine List.pairwise_cons.2 ⟨fun c hc => ?_, ih hp.2⟩
          rcases Memory.mem_write m a v c hc with hc | hc
          · subst hc
            show k < a
            omega
          · exact hp.1 c hc
  · intro c hc
    rcases Memory.mem_write m a v c hc with hc | hc
    · subst hc; exact ha
    · exact hm.2 c hc

/-- The sensor's registers at the start of a run are in canonical form. -/
theorem initialMemory_wf : initialMemory.wf := by decide

/-! ### The sensor's bytes -/

theorem State.sensorByte_setSensorByte_same (s : State) (a : Nat) (v : Byte) (h : storedAddr a = true) :
    (s.setSensorByte a v).sensorByte a = some v := by
  simp [State.sensorByte, h]

theorem State.sensorByte_setSensorByte_other (s : State) (a b : Nat) (v : Byte) (h : b ≠ a) :
    (s.setSensorByte a v).sensorByte b = s.sensorByte b := by
  simp [State.sensorByte, Memory.read_write_other _ _ _ _ h]

/-- The sensor keeps no content for RESET (R49). -/
@[simp] theorem State.sensorByte_e0 (s : State) : s.sensorByte 0xE0 = none := rfl

/-- Nor for any other address the spec gives none for. -/
theorem State.sensorByte_unlisted (s : State) (a : Nat) (h : storedAddr a = false) : s.sensorByte a = none := by
  simp [State.sensorByte, h]

/-- The sensor's bytes depend on the memory alone. -/
theorem State.sensorByte_congr (s t : State) (h : t.mem = s.mem) (a : Nat) : t.sensorByte a = s.sensorByte a := by
  simp [State.sensorByte, h]

/-- A completed Forced conversion touches CTRL_MEAS only. -/
theorem State.sensorByte_completeForced_other (s : State) (a : Nat) (h : a ≠ 0xF4) :
    s.completeForced.sensorByte a = s.sensorByte a := by
  unfold State.completeForced
  split
  · split
    · exact State.sensorByte_setSensorByte_other _ _ _ _ h
    · rfl
  · rfl

/-- What a completed Forced conversion leaves in CTRL_MEAS. -/
theorem State.sensorByte_completeForced (s : State) (b : Byte) (h : s.sensorByte 0xF4 = some b) :
    s.completeForced.sensorByte 0xF4 = some (if forcedCode b then b &&& 0xFC#8 else b) := by
  unfold State.completeForced
  rw [h]
  dsimp only
  split
  · exact State.sensorByte_setSensorByte_same _ _ _ (by decide)
  · exact h

/-- Before a read, the environment changes no byte but CTRL_MEAS. -/
theorem State.sensorByte_beforeRead_other (s : State) (x : Answer) (reg : Byte) (n a : Nat) (h : a ≠ 0xF4) :
    (s.beforeRead x reg n).sensorByte a = s.sensorByte a := by
  unfold State.beforeRead
  dsimp only
  split
  · rw [State.sensorByte_completeForced_other _ _ h]
    split <;> rfl
  · split <;> rfl

/-- Before a read that does not reach CTRL_MEAS, or with no completion drawn, the environment changes no byte. -/
theorem State.sensorByte_beforeRead_quiet (s : State) (x : Answer) (reg : Byte) (n a : Nat)
    (h : x.completed = false ∨ ¬(reg.toNat ≤ 0xF4 ∧ 0xF4 < reg.toNat + n)) :
    (s.beforeRead x reg n).sensorByte a = s.sensorByte a := by
  unfold State.beforeRead
  dsimp only
  split
  · rename_i hc
    rcases h with h | h
    · rw [h] at hc; exact absurd hc.1 (by decide)
    · exact absurd hc.2 h
  · split <;> rfl

/-- The startup window before a read: over if the environment says so, else as it was. -/
theorem State.starting_beforeRead (s : State) (x : Answer) (reg : Byte) (n : Nat) :
    (s.beforeRead x reg n).starting = (s.starting && !x.settled) := by
  unfold State.beforeRead
  dsimp only
  split <;> split <;> simp_all

/-- Accepting a byte changes no sensor byte but CTRL_MEAS and CONFIG. -/
theorem State.sensorByte_acceptByte_other (s : State) (a : Nat) (v : Byte) (b : Nat) (h4 : b ≠ 0xF4) (h5 : b ≠ 0xF5) :
    (s.acceptByte a v).sensorByte b = s.sensorByte b := by
  unfold State.acceptByte
  split
  · rename_i ha
    refine State.sensorByte_setSensorByte_other _ _ _ _ ?_
    rcases ha with ha | ha <;> subst ha <;> assumption
  · split
    · show (State.setSensorByte (s.setSensorByte 0xF4 0x00#8) 0xF5 0x00#8).sensorByte b = _
      rw [State.sensorByte_setSensorByte_other _ _ _ _ h5, State.sensorByte_setSensorByte_other _ _ _ _ h4]
    · rfl

theorem State.sensorByte_acceptBytes_other (s : State) (a : Nat) (bs : List Byte) (b : Nat) (h4 : b ≠ 0xF4)
    (h5 : b ≠ 0xF5) : (s.acceptBytes a bs).sensorByte b = s.sensorByte b := by
  induction bs generalizing s a with
  | nil => rfl
  | cons v vs ih => rw [State.acceptBytes, ih, State.sensorByte_acceptByte_other _ _ _ _ h4 h5]

/-- Accepting a byte for CTRL_MEAS or CONFIG stores it there and nowhere else. -/
theorem State.acceptBytes_config (s : State) (reg : Byte) (v : Byte) (h : reg = 0xF4#8 ∨ reg = 0xF5#8) :
    s.acceptBytes reg.toNat [v] = s.setSensorByte reg.toNat v := by
  rcases h with h | h <;> subst h <;> rfl

/-- Accepting the reset write is the sensor's soft reset. -/
theorem State.acceptBytes_reset (s : State) : s.acceptBytes (0xE0#8).toNat [0xB6#8] = s.sensorReset := by
  simp [State.acceptBytes, State.acceptByte]

theorem State.sensorByte_sensorReset_f4 (s : State) : s.sensorReset.sensorByte 0xF4 = some 0x00#8 := by
  show (State.setSensorByte (s.setSensorByte 0xF4 0x00#8) 0xF5 0x00#8).sensorByte 0xF4 = _
  rw [State.sensorByte_setSensorByte_other _ _ _ _ (by decide), State.sensorByte_setSensorByte_same _ _ _ (by decide)]

theorem State.sensorByte_sensorReset_f5 (s : State) : s.sensorReset.sensorByte 0xF5 = some 0x00#8 := by
  show (State.setSensorByte (s.setSensorByte 0xF4 0x00#8) 0xF5 0x00#8).sensorByte 0xF5 = _
  rw [State.sensorByte_setSensorByte_same _ _ _ (by decide)]

/-! ### Every operation keeps the canonical form -/

theorem State.wf_setSensorByte (s : State) (a : Nat) (v : Byte) (h : s.mem.wf) (ha : storedAddr a = true) :
    (s.setSensorByte a v).mem.wf := Memory.wf_write _ _ _ h ha

theorem State.wf_completeForced (s : State) (h : s.mem.wf) : s.completeForced.mem.wf := by
  unfold State.completeForced
  split
  · split
    · exact s.wf_setSensorByte _ _ h (by decide)
    · exact h
  · exact h

theorem State.wf_beforeRead (s : State) (a : Answer) (reg : Byte) (n : Nat) (h : s.mem.wf) :
    (s.beforeRead a reg n).mem.wf := by
  unfold State.beforeRead
  dsimp only
  have h1 : (if a.settled = true then s.settle else s).mem.wf := by split <;> exact h
  split
  · exact State.wf_completeForced _ h1
  · exact h1

theorem State.wf_acceptByte (s : State) (a : Nat) (v : Byte) (h : s.mem.wf) : (s.acceptByte a v).mem.wf := by
  unfold State.acceptByte
  split
  · rename_i ha
    refine s.wf_setSensorByte _ _ h ?_
    rcases ha with ha | ha <;> subst ha <;> decide
  · split
    · exact State.wf_setSensorByte _ _ _ (s.wf_setSensorByte _ _ h (by decide)) (by decide)
    · exact h

theorem State.wf_acceptBytes (s : State) (a : Nat) (bs : List Byte) (h : s.mem.wf) : (s.acceptBytes a bs).mem.wf := by
  induction bs generalizing s a with
  | nil => exact h
  | cons b bs ih => exact ih _ _ (s.wf_acceptByte a b h)

/-! ### What a read sees -/

/-- Reading one register. -/
theorem State.seenBytes_one (s : State) (a : Answer) (reg : Byte) :
    s.seenBytes a reg 1 = [s.seenByte reg.toNat a.b0] := by
  simp [State.seenBytes, freeByte]

theorem State.seenBytes_two (s : State) (a : Answer) (reg : Byte) :
    s.seenBytes a reg 2 = [s.seenByte reg.toNat a.b0, s.seenByte (reg.toNat + 1) a.b1] := by
  simp [State.seenBytes, freeByte, List.range_succ]

theorem State.seenBytes_three (s : State) (a : Answer) (reg : Byte) :
    s.seenBytes a reg 3 =
      [s.seenByte reg.toNat a.b0, s.seenByte (reg.toNat + 1) a.b1, s.seenByte (reg.toNat + 2) a.b2] := by
  simp [State.seenBytes, freeByte, List.range_succ]

/-- Where the spec gives no content, a read returns what was drawn, but for RESET where R31's assumption is made. -/
theorem State.seenByte_none (s : State) (a : Nat) (free : Byte) (h : s.sensorByte a = none)
    (he : a ≠ 0xE0 ∨ s.resetReadsZero = false) : s.seenByte a free = free := by
  unfold State.seenByte
  rw [h]
  split
  · rfl
  · split
    · rfl
    · rw [if_neg]
      · rfl
      · rintro ⟨h1, h2⟩
        rcases he with he | he
        · exact he h1
        · rw [he] at h2; exact absurd h2 (by decide)

/-- Where R31's assumption is made, a read of RESET outside the startup window returns 0x00. -/
theorem State.seenByte_reset (s : State) (free : Byte) (hs : s.starting = false) (hz : s.resetReadsZero = true) :
    s.seenByte 0xE0 free = 0x00#8 := by
  have he : s.params.envModel = .mem := by
    simp only [State.resetReadsZero, Bool.and_eq_true, beq_iff_eq] at hz
    exact hz.1
  unfold State.seenByte
  rw [hs, hz, he]
  rfl

/-- Under ENV-FREE a read of an address whose content is not constant returns what was drawn. -/
theorem State.seenByte_free (s : State) (a : Nat) (free : Byte) (he : s.params.envModel = .free)
    (h : constantAddr a = false) : s.seenByte a free = free := by
  unfold State.seenByte
  split
  · rfl
  · rw [if_pos ⟨he, h⟩]

/-- No startup window, and ENV-MEM or a constant content: a read returns what the sensor holds. -/
theorem State.seenByte_held (s : State) (a : Nat) (free b : Byte) (hs : s.starting = false)
    (he : s.params.envModel = .mem ∨ constantAddr a = true) (h : s.sensorByte a = some b) : s.seenByte a free = b := by
  unfold State.seenByte
  rw [hs, h, if_neg (by decide), if_neg, if_neg]
  · rfl
  · rintro ⟨h1, -⟩
    subst h1
    exact absurd h (by simp)
  · rintro ⟨h1, h2⟩
    rcases he with he | he
    · rw [he] at h1; exact absurd h1 (by decide)
    · rw [he] at h2; exact absurd h2 (by decide)

end Sys2Proof.Machine
end

