-- ==== Sys2Proof/Laws/PerInstr.lean ====
section
/-! SUPPORT. Per instruction: the word of a command has its row's fixed bits (spec/opcode_table.json). -/

namespace Sys2Proof

/-- The mask of a command's row: the bits the row fixes. -/
def tableMask : Instr → Word
  | .setField _ _ _ _ => 0xFF008000#32
  | .getField _ _ _ => 0xFF0080FF#32
  | .init => 0xFFFFFFFF#32
  | .deinit => 0xFFFFFFFF#32
  | .checkId => 0xFFFFFFFF#32
  | .reset => 0xFFFFFFFF#32
  | .setMode _ => 0xFFFFFFFC#32
  | .setOsrsP _ => 0xFFFFFFF8#32
  | .setOsrsT _ => 0xFFFFFFF8#32
  | .setStandby _ => 0xFFFFFFF8#32
  | .setFilter _ => 0xFFFFFFF8#32
  | .configureAll _ _ _ _ _ => 0xFFFF8004#32
  | .getMode => 0xFFFFFFFF#32
  | .getOsrsP => 0xFFFFFFFF#32
  | .getOsrsT => 0xFFFFFFFF#32
  | .getStandby => 0xFFFFFFFF#32
  | .getFilter => 0xFFFFFFFF#32
  | .compT _ => 0xFFF00000#32
  | .compP _ => 0xFFF00000#32
  | .getTemperature => 0xFFFFFFFF#32
  | .getPressure => 0xFFFFFFFF#32
  | .getAll => 0xFFFFFFFF#32

/-- The fixed bits themselves. -/
def tableMatch : Instr → Word
  | .setField _ _ _ _ => 0x01000000#32
  | .getField _ _ _ => 0x02000000#32
  | .init => 0x10000000#32
  | .deinit => 0x11000000#32
  | .checkId => 0x12000000#32
  | .reset => 0x13000000#32
  | .setMode _ => 0x20000000#32
  | .setOsrsP _ => 0x21000000#32
  | .setOsrsT _ => 0x22000000#32
  | .setStandby _ => 0x23000000#32
  | .setFilter _ => 0x24000000#32
  | .configureAll _ _ _ _ _ => 0x25000000#32
  | .getMode => 0x30000000#32
  | .getOsrsP => 0x31000000#32
  | .getOsrsT => 0x32000000#32
  | .getStandby => 0x33000000#32
  | .getFilter => 0x34000000#32
  | .compT _ => 0x40000000#32
  | .compP _ => 0x41000000#32
  | .getTemperature => 0x50000000#32
  | .getPressure => 0x51000000#32
  | .getAll => 0x52000000#32

/-- A row's fixed bits lie under its mask. -/
theorem tableMatch_masked (i : Instr) : tableMatch i &&& tableMask i = tableMatch i := by
  cases i <;> simp only [tableMatch, tableMask] <;> decide

/-- The word of the command agrees with its row on the bits the row fixes. -/
def Laws.TableRow.Statement (i : Instr) : Prop := encode i &&& tableMask i = tableMatch i

/-- A word agrees with a row if its number does so at every bit the row fixes. -/
theorem Laws.TableRow.of_bits {i : Instr}
    (h : ∀ k < 32, (tableMask i).getLsbD k = true →
      (encode i).toNat / 2 ^ k % 2 = (tableMatch i).toNat / 2 ^ k % 2) : Laws.TableRow.Statement i := by
  unfold Laws.TableRow.Statement
  rw [← tableMatch_masked i]
  refine BitVec.eq_of_getLsbD_eq fun k hk => ?_
  rw [BitVec.getLsbD_and, BitVec.getLsbD_and]
  cases hm : (tableMask i).getLsbD k with
  | false => rw [Bool.and_false, Bool.and_false]
  | true =>
    rw [Bool.and_true, Bool.and_true, BitVec.getLsbD, BitVec.getLsbD, Nat.testBit_eq_decide_div_mod_eq,
      Nat.testBit_eq_decide_div_mod_eq, h k hk hm]

theorem Laws.TableRow.setField (reg : Byte) (start : BitVec 3) (width : BitVec 4) (value : Byte) :
    Laws.TableRow.Statement (.setField reg start width value) := by
  refine Laws.TableRow.of_bits fun k hk hm => ?_
  have hr := reg.isLt
  have hs := start.isLt
  have hw := width.isLt
  have hv := value.isLt
  rw [encode_setField_toNat, show (tableMatch (.setField reg start width value)).toNat = 0x01000000 from rfl]
  change (0xFF008000#32 : BitVec 32).getLsbD k = true at hm
  interval_cases k <;> first
    | exact absurd hm (by decide)
    | omega

theorem Laws.TableRow.getField (reg : Byte) (start : BitVec 3) (width : BitVec 4) :
    Laws.TableRow.Statement (.getField reg start width) := by
  refine Laws.TableRow.of_bits fun k hk hm => ?_
  have hr := reg.isLt
  have hs := start.isLt
  have hw := width.isLt
  rw [encode_getField_toNat, show (tableMatch (.getField reg start width)).toNat = 0x02000000 from rfl]
  change (0xFF0080FF#32 : BitVec 32).getLsbD k = true at hm
  interval_cases k <;> first
    | exact absurd hm (by decide)
    | omega

theorem Laws.TableRow.init : Laws.TableRow.Statement (.init) := by
  unfold Laws.TableRow.Statement
  decide

theorem Laws.TableRow.deinit : Laws.TableRow.Statement (.deinit) := by
  unfold Laws.TableRow.Statement
  decide

theorem Laws.TableRow.checkId : Laws.TableRow.Statement (.checkId) := by
  unfold Laws.TableRow.Statement
  decide

theorem Laws.TableRow.reset : Laws.TableRow.Statement (.reset) := by
  unfold Laws.TableRow.Statement
  decide

theorem Laws.TableRow.setMode (m : Mode) : Laws.TableRow.Statement (.setMode m) := by
  unfold Laws.TableRow.Statement
  cases m <;> decide

theorem Laws.TableRow.setOsrsP (c : Osrs) : Laws.TableRow.Statement (.setOsrsP c) := by
  unfold Laws.TableRow.Statement
  cases c <;> decide

theorem Laws.TableRow.setOsrsT (c : Osrs) : Laws.TableRow.Statement (.setOsrsT c) := by
  unfold Laws.TableRow.Statement
  cases c <;> decide

theorem Laws.TableRow.setStandby (c : Standby) : Laws.TableRow.Statement (.setStandby c) := by
  unfold Laws.TableRow.Statement
  cases c <;> decide

theorem Laws.TableRow.setFilter (c : Filter) : Laws.TableRow.Statement (.setFilter c) := by
  unfold Laws.TableRow.Statement
  cases c <;> decide

theorem Laws.TableRow.configureAll (op ot : Osrs) (sb : Standby) (fl : Filter) (md : Mode) :
    Laws.TableRow.Statement (.configureAll op ot sb fl md) := by
  refine Laws.TableRow.of_bits fun k hk hm => ?_
  have hp := op.code.isLt
  have ht := ot.code.isLt
  have hs := sb.code.isLt
  have hf := fl.code.isLt
  have hd := md.code.isLt
  rw [encode_configureAll_toNat, show (tableMatch (.configureAll op ot sb fl md)).toNat = 0x25000000 from rfl]
  change (0xFFFF8004#32 : BitVec 32).getLsbD k = true at hm
  interval_cases k <;> first
    | exact absurd hm (by decide)
    | omega

theorem Laws.TableRow.getMode : Laws.TableRow.Statement (.getMode) := by
  unfold Laws.TableRow.Statement
  decide

theorem Laws.TableRow.getOsrsP : Laws.TableRow.Statement (.getOsrsP) := by
  unfold Laws.TableRow.Statement
  decide

theorem Laws.TableRow.getOsrsT : Laws.TableRow.Statement (.getOsrsT) := by
  unfold Laws.TableRow.Statement
  decide

theorem Laws.TableRow.getStandby : Laws.TableRow.Statement (.getStandby) := by
  unfold Laws.TableRow.Statement
  decide

theorem Laws.TableRow.getFilter : Laws.TableRow.Statement (.getFilter) := by
  unfold Laws.TableRow.Statement
  decide

theorem Laws.TableRow.compT (adc : U20) : Laws.TableRow.Statement (.compT adc) := by
  refine Laws.TableRow.of_bits fun k hk hm => ?_
  have ha := adc.isLt
  rw [encode_compT_toNat, show (tableMatch (.compT adc)).toNat = 0x40000000 from rfl]
  change (0xFFF00000#32 : BitVec 32).getLsbD k = true at hm
  interval_cases k <;> first
    | exact absurd hm (by decide)
    | omega

theorem Laws.TableRow.compP (adc : U20) : Laws.TableRow.Statement (.compP adc) := by
  refine Laws.TableRow.of_bits fun k hk hm => ?_
  have ha := adc.isLt
  rw [encode_compP_toNat, show (tableMatch (.compP adc)).toNat = 0x41000000 from rfl]
  change (0xFFF00000#32 : BitVec 32).getLsbD k = true at hm
  interval_cases k <;> first
    | exact absurd hm (by decide)
    | omega

theorem Laws.TableRow.getTemperature : Laws.TableRow.Statement (.getTemperature) := by
  unfold Laws.TableRow.Statement
  decide

theorem Laws.TableRow.getPressure : Laws.TableRow.Statement (.getPressure) := by
  unfold Laws.TableRow.Statement
  decide

theorem Laws.TableRow.getAll : Laws.TableRow.Statement (.getAll) := by
  unfold Laws.TableRow.Statement
  decide

end Sys2Proof
end

