-- ==== Sys2Proof/Laws/Proc.lean ====
section
/-! SUPPORT. How procedures run: one rewriting lemma per way of building a procedure, one equation per capability call,
and the relation `Keeps` between the states before and after a procedure, with one lemma per shared procedure. -/

namespace Sys2Proof.Machine

/-! ### Running a procedure -/

theorem bind_run {α β : Type} (p : Proc α) (f : α → Proc β) (s : State) :
    (p >>= f) s = match p s with
      | .ok a t => f a t
      | .error e t => .error e t := by
  show EStateM.bind p f s = _
  unfold EStateM.bind
  cases p s <;> rfl

theorem bind_run_ok {α β : Type} {p : Proc α} {f : α → Proc β} {s t : State} {a : α} (h : p s = .ok a t) :
    (p >>= f) s = f a t := by
  rw [bind_run, h]

theorem bind_run_error {α β : Type} {p : Proc α} {f : α → Proc β} {s t : State} {e : Stop} (h : p s = .error e t) :
    (p >>= f) s = .error e t := by
  rw [bind_run, h]

theorem map_run {α β : Type} (p : Proc α) (f : α → β) (s : State) :
    (f <$> p) s = match p s with
      | .ok a t => .ok (f a) t
      | .error e t => .error e t := by
  rw [map_eq_pure_bind, bind_run]
  cases p s <;> rfl

@[simp] theorem pure_run {α : Type} (a : α) (s : State) : (pure a : Proc α) s = .ok a s := rfl

@[simp] theorem get_run (s : State) : (get : Proc State) s = .ok s s := rfl

@[simp] theorem set_run (t s : State) : (set t : Proc PUnit) s = .ok ⟨⟩ t := rfl

@[simp] theorem modify_run (f : State → State) (s : State) : (modify f : Proc PUnit) s = .ok ⟨⟩ (f s) := rfl

@[simp] theorem raise_run {α : Type} (c : RspCode) (s : State) : (raise c : Proc α) s = .error (.raise c) s := rfl

@[simp] theorem fault_run {α : Type} (c : FaultCause) (s : State) : (fault c : Proc α) s = .error (.fault c) s := rfl

@[simp] theorem record_run (e : Event) (s : State) : record e s = .ok () (s.log e) := rfl

@[simp] theorem draw_run (s : State) : draw s = .ok s.nextAnswer.1 s.nextAnswer.2 := rfl

/-! ### Everything a capability call can do -/

theorem memRead_run (reg : Byte) (n : Nat) (s : State) :
    memRead reg n s =
      if s.nextAnswer.1.ok then
        .ok ((s.nextAnswer.2.beforeRead s.nextAnswer.1 reg n).seenBytes s.nextAnswer.1 reg n)
          ((s.nextAnswer.2.beforeRead s.nextAnswer.1 reg n).log
            (.rd reg n (some ((s.nextAnswer.2.beforeRead s.nextAnswer.1 reg n).seenBytes s.nextAnswer.1 reg n))))
      else
        .error (.raise .interfaceError)
          ((s.nextAnswer.2.beforeRead s.nextAnswer.1 reg n).log (.rd reg n none)) := by
  unfold memRead
  simp only [bind_run, draw_run, modify_run]
  split <;> rfl

theorem memWrite_run (reg : Byte) (bytes : List Byte) (s : State) :
    memWrite reg bytes s =
      if s.nextAnswer.1.ok then .ok () ((s.nextAnswer.2.acceptBytes reg.toNat bytes).log (.wr reg bytes true))
      else if s.nextAnswer.1.took then
        .error (.raise .interfaceError) ((s.nextAnswer.2.acceptBytes reg.toNat bytes).log (.wr reg bytes false))
      else .error (.raise .interfaceError) (s.nextAnswer.2.log (.wr reg bytes false)) := by
  unfold memWrite
  simp only [bind_run, draw_run]
  rcases s.nextAnswer.1.ok.eq_false_or_eq_true with h | h <;>
    rcases s.nextAnswer.1.took.eq_false_or_eq_true with h' | h' <;> simp [h, h', bind_run]

theorem delay_run (ms : U32) (s : State) :
    delay ms s =
      if s.nextAnswer.1.ok then .ok () ((s.nextAnswer.2.log (.dly ms true)).waited ms)
      else .error (.raise .interfaceError) (s.nextAnswer.2.log (.dly ms false)) := by
  unfold delay
  simp only [bind_run, draw_run, record_run]
  rcases s.nextAnswer.1.ok.eq_false_or_eq_true with h | h <;> simp [h]

theorem ifInit_run (s : State) :
    ifInit s =
      if s.nextAnswer.1.ok then .ok () (s.nextAnswer.2.log (.ifI true))
      else .error (.raise .interfaceError) (s.nextAnswer.2.log (.ifI false)) := by
  unfold ifInit
  simp only [bind_run, draw_run, record_run]
  rcases s.nextAnswer.1.ok.eq_false_or_eq_true with h | h <;> simp [h]

theorem ifDeinit_run (s : State) :
    ifDeinit s =
      if s.nextAnswer.1.ok then .ok () (s.nextAnswer.2.log (.ifD true))
      else .error (.raise .interfaceError) (s.nextAnswer.2.log (.ifD false)) := by
  unfold ifDeinit
  simp only [bind_run, draw_run, record_run]
  rcases s.nextAnswer.1.ok.eq_false_or_eq_true with h | h <;> simp [h]

theorem power_run (x y : Rat) (s : State) :
    power x y s =
      if s.nextAnswer.1.ok then .ok s.nextAnswer.1.real (s.nextAnswer.2.log (.pow x y (some s.nextAnswer.1.real)))
      else .error (.raise .interfaceError) (s.nextAnswer.2.log (.pow x y none)) := by
  unfold power
  simp only [bind_run, draw_run]
  split <;> rfl

/-! ### The same, for a call that succeeds -/

theorem memRead_ok {s : State} {a : Answer} {rest : List Answer} (reg : Byte) (n : Nat) (h : s.answers = a :: rest)
    (ha : a.ok = true) :
    memRead reg n s =
      .ok (({ s with answers := rest }.beforeRead a reg n).seenBytes a reg n)
        (({ s with answers := rest }.beforeRead a reg n).log
          (.rd reg n (some (({ s with answers := rest }.beforeRead a reg n).seenBytes a reg n)))) := by
  rw [memRead_run, s.nextAnswer_cons a rest h, if_pos ha]

theorem memWrite_ok {s : State} {a : Answer} {rest : List Answer} (reg : Byte) (bytes : List Byte)
    (h : s.answers = a :: rest) (ha : a.ok = true) :
    memWrite reg bytes s = .ok () (({ s with answers := rest }.acceptBytes reg.toNat bytes).log (.wr reg bytes true)) := by
  rw [memWrite_run, s.nextAnswer_cons a rest h, if_pos ha]

/-! ### The response -/

theorem conclude_ok (v : RspVal) (s : State) : conclude (.ok v s) = s.respond .ok v := rfl

theorem conclude_raise (c : RspCode) (s : State) : conclude (.error (.raise c) s) = s.respond c .absent := rfl

theorem conclude_fault (c : FaultCause) (s : State) : conclude (.error (.fault c) s) = s.enterFault c := rfl

/-- A command that passes checks 1 and 3 to 5 of R135 runs its own steps. -/
theorem checked_pass {needsReady : Bool} {body : Proc RspVal} {s : State} (h1 : s.fault = false)
    (h3 : s.params.handlePresent = true) (h4 : s.capsPresent = true)
    (h5 : needsReady = false ∨ s.lifecycle = .ready) : checked needsReady body s = conclude (body s) := by
  unfold checked
  rw [if_neg (by simp [h1]), if_neg (by simp [h3]), if_neg (by simp [h4]), if_neg]
  rcases h5 with h5 | h5 <;> simp [h5]

/-- All that a command can come to: one of checks 1 and 3 to 5 answers, or its own steps do. -/
theorem checked_cases (needsReady : Bool) (body : Proc RspVal) (s : State) :
    (s.fault = true ∧ checked needsReady body s = s.respond .faulted .absent) ∨
    (s.fault = false ∧ s.params.handlePresent = false ∧ checked needsReady body s = s.respond .nullHandle .absent) ∨
    (s.fault = false ∧ s.params.handlePresent = true ∧ s.capsPresent = false ∧
      checked needsReady body s = s.respond .nullDependency .absent) ∨
    (s.fault = false ∧ s.params.handlePresent = true ∧ s.capsPresent = true ∧ needsReady = true ∧
      s.lifecycle = .uninit ∧ checked needsReady body s = s.enterFault .notReady) ∨
    (s.fault = false ∧ s.params.handlePresent = true ∧ s.capsPresent = true ∧
      (needsReady = false ∨ s.lifecycle = .ready) ∧ checked needsReady body s = conclude (body s)) := by
  unfold checked
  rcases hf : s.fault
  · rcases hp : s.params.handlePresent
    · simp
    · rcases hc : s.capsPresent
      · simp
      · rcases needsReady
        · simp
        · rcases hl : s.lifecycle <;> simp
  · simp

/-! ### A relation between the states before and after -/

/-- The state a procedure ends in, however it ends. -/
def endState {α : Type} : EStateM.Result Stop State α → State
  | .ok _ t => t
  | .error _ t => t

/-- Every run of the procedure relates its first and last state. -/
def Keeps {α : Type} (R : State → State → Prop) (p : Proc α) : Prop := ∀ s, R s (endState (p s))

/-- A relation closed under everything a capability call does to the state. -/
structure CallClosed (R : State → State → Prop) : Prop where
  refl : ∀ s, R s s
  trans : ∀ s t u, R s t → R t u → R s u
  answer : ∀ s, R s s.nextAnswer.2
  log : ∀ s e, R s (s.log e)
  before : ∀ s a reg n, R s (s.beforeRead a reg n)
  accept : ∀ s a bs, R s (s.acceptBytes a bs)
  waited : ∀ s ms, R s (s.waited ms)

variable {R : State → State → Prop}

theorem keeps_pure {α : Type} (h : CallClosed R) (a : α) : Keeps R (pure a : Proc α) := fun s => h.refl s

theorem keeps_bind {α β : Type} (h : CallClosed R) {p : Proc α} {f : α → Proc β} (hp : Keeps R p)
    (hf : ∀ a, Keeps R (f a)) : Keeps R (p >>= f) := by
  intro s
  have h1 := hp s
  rw [bind_run]
  cases hr : p s with
  | ok a t =>
    rw [hr] at h1
    exact h.trans _ _ _ h1 (hf a t)
  | error e t =>
    rw [hr] at h1
    exact h1

/-- After `get` the rest is looked at in the state it got. -/
theorem keeps_get_bind {β : Type} {f : State → Proc β} (hf : ∀ s, R s (endState (f s s))) :
    Keeps R ((get : Proc State) >>= f) := fun s => hf s

theorem keeps_modify {f : State → State} (hf : ∀ s, R s (f s)) : Keeps R (modify f : Proc PUnit) := fun s => hf s

theorem keeps_raise {α : Type} (h : CallClosed R) (c : RspCode) : Keeps R (raise c : Proc α) := fun s => h.refl s

theorem keeps_fault {α : Type} (h : CallClosed R) (c : FaultCause) : Keeps R (fault c : Proc α) := fun s => h.refl s

theorem keeps_memRead (h : CallClosed R) (reg : Byte) (n : Nat) : Keeps R (memRead reg n) := by
  intro s
  rw [memRead_run]
  have h1 := h.trans _ _ _ (h.answer s) (h.before s.nextAnswer.2 s.nextAnswer.1 reg n)
  split <;> exact h.trans _ _ _ h1 (h.log _ _)

theorem keeps_memWrite (h : CallClosed R) (reg : Byte) (bytes : List Byte) : Keeps R (memWrite reg bytes) := by
  intro s
  rw [memWrite_run]
  have h1 := h.trans _ _ _ (h.answer s) (h.accept s.nextAnswer.2 reg.toNat bytes)
  split
  · exact h.trans _ _ _ h1 (h.log _ _)
  · split
    · exact h.trans _ _ _ h1 (h.log _ _)
    · exact h.trans _ _ _ (h.answer s) (h.log _ _)

theorem keeps_delay (h : CallClosed R) (ms : U32) : Keeps R (delay ms) := by
  intro s
  rw [delay_run]
  split
  · exact h.trans _ _ _ (h.trans _ _ _ (h.answer s) (h.log _ _)) (h.waited _ _)
  · exact h.trans _ _ _ (h.answer s) (h.log _ _)

theorem keeps_ifInit (h : CallClosed R) : Keeps R ifInit := by
  intro s
  rw [ifInit_run]
  split <;> exact h.trans _ _ _ (h.answer s) (h.log _ _)

theorem keeps_ifDeinit (h : CallClosed R) : Keeps R ifDeinit := by
  intro s
  rw [ifDeinit_run]
  split <;> exact h.trans _ _ _ (h.answer s) (h.log _ _)

theorem keeps_power (h : CallClosed R) (x y : Rat) : Keeps R (power x y) := by
  intro s
  rw [power_run]
  split <;> exact h.trans _ _ _ (h.answer s) (h.log _ _)

theorem keeps_codecSet (h : CallClosed R) (reg value : Byte) (start width : Nat) :
    Keeps R (codecSet reg value start width) :=
  keeps_bind h (keeps_memRead h _ _) fun _ => keeps_memWrite h _ _

theorem keeps_codecGet (h : CallClosed R) (reg : Byte) (start width : Nat) : Keeps R (codecGet reg start width) :=
  keeps_bind h (keeps_memRead h _ _) fun _ => keeps_pure h _

theorem keeps_setModeProc (h : CallClosed R) (hm : ∀ s m, R s { s with mode := m }) (m : Mode) :
    Keeps R (setModeProc m) :=
  keeps_bind h (keeps_codecSet h _ _ _ _) fun _ => keeps_modify fun s => hm s m

theorem keeps_setSleepOnly (h : CallClosed R) (hm : ∀ s m, R s { s with mode := m }) (reg : Byte) (start : Nat)
    (code : BitVec 3) : Keeps R (setSleepOnly reg start code) :=
  keeps_get_bind fun s =>
    keeps_bind h (keeps_setModeProc h hm _) (fun _ => keeps_bind h (keeps_codecSet h _ _ _ _) fun _ =>
      keeps_setModeProc h hm _) s

theorem keeps_configureAllProc (h : CallClosed R) (hm : ∀ s m, R s { s with mode := m }) (op ot : Osrs) (sb : Standby)
    (fl : Filter) (md : Mode) : Keeps R (configureAllProc op ot sb fl md) :=
  keeps_bind h (keeps_setSleepOnly h hm _ _ _) fun _ => keeps_bind h (keeps_setSleepOnly h hm _ _ _) fun _ =>
    keeps_bind h (keeps_setSleepOnly h hm _ _ _) fun _ => keeps_bind h (keeps_setSleepOnly h hm _ _ _) fun _ =>
      keeps_setModeProc h hm _

theorem keeps_softReset (h : CallClosed R) (hm : ∀ s m, R s { s with mode := m }) : Keeps R softReset :=
  keeps_bind h (keeps_memWrite h _ _) fun _ => keeps_modify fun s => hm s _

theorem keeps_checkIdProc (h : CallClosed R) (hl : ∀ s, R s { s with addrValid := false, lifecycle := .uninit }) :
    Keeps R checkIdProc := by
  refine keeps_bind h (keeps_memRead h _ _) fun bytes => ?_
  by_cases hb : bytes.getD 0 0 ≠ 0x58#8
  · rw [if_pos hb]
    exact keeps_bind h (keeps_modify hl) fun _ => keeps_raise h _
  · rw [if_neg hb]
    exact keeps_pure h _

theorem keeps_readCalWord (h : CallClosed R) (reg : Byte) : Keeps R (readCalWord reg) :=
  keeps_bind h (keeps_memRead h _ _) fun _ => keeps_pure h _

theorem keeps_readCalib (h : CallClosed R) : Keeps R readCalib := by
  unfold readCalib
  iterate 12 refine keeps_bind h (keeps_readCalWord h _) fun _ => ?_
  exact keeps_pure h _

theorem keeps_fetchCal (h : CallClosed R) (h0 : ∀ s, R s { s with calValid := false })
    (h1 : ∀ s c, R s { s with cal := c, calValid := true }) : Keeps R fetchCal :=
  keeps_bind h (keeps_modify h0) fun _ => keeps_bind h (keeps_readCalib h) fun c => keeps_modify fun s => h1 s c

theorem keeps_readCode (h : CallClosed R) (reg : Byte) (start : Nat) (valid : BitVec 3 → Bool) :
    Keeps R (readCode reg start valid) := by
  refine keeps_bind h (keeps_codecGet h _ _ _) fun f => ?_
  cases hv : valid (f.setWidth 3) with
  | true => exact keeps_pure h _
  | false => exact keeps_raise h _

theorem keeps_compT (h : CallClosed R) (ht : ∀ s v, R s { s with tFine := v, tFineValid := true }) (adc : U20) :
    Keeps R (compT adc) :=
  keeps_get_bind fun s => keeps_bind h (keeps_modify fun t => ht t _) (fun _ => keeps_pure h _) s

theorem keeps_requireTFine (h : CallClosed R) : Keeps R requireTFine := by
  refine keeps_get_bind fun s => ?_
  cases hv : s.tFineValid with
  | true => exact h.refl s
  | false => exact h.refl s

theorem keeps_compP (h : CallClosed R) (adc : U20) : Keeps R (compP adc) :=
  keeps_bind h (keeps_requireTFine h) fun _ => keeps_get_bind fun s => h.refl s

theorem keeps_pollLoop (h : CallClosed R) (hd : ∀ s, R s { s with pollBudget := s.params.pollCeilingMs, pstate := .ready })
    (ht : ∀ s, R s { s with pstate := .timedOut })
    (hw : ∀ s, s.pollBudget.ult s.params.pollPeriod.ms = false →
      R s { s with pollBudget := s.pollBudget - s.params.pollPeriod.ms }) (n : Nat) : Keeps R (pollLoop n) := by
  induction n with
  | zero => exact keeps_bind h (keeps_modify ht) fun _ => keeps_raise h _
  | succ n ih =>
    refine keeps_bind h (keeps_codecGet h _ _ _) fun m => keeps_get_bind fun s => ?_
    by_cases hm : m = 0#8
    · rw [if_pos hm]
      exact hd s
    · rw [if_neg hm]
      cases hb : s.pollBudget.ult s.params.pollPeriod.ms with
      | true => exact ht s
      | false =>
        refine h.trans _ _ _ (hw s hb) ?_
        exact keeps_bind h (keeps_delay h _) (fun _ => ih) { s with pollBudget := s.pollBudget - s.params.pollPeriod.ms }

theorem keeps_poll (h : CallClosed R) (hd : ∀ s, R s { s with pollBudget := s.params.pollCeilingMs, pstate := .ready })
    (ht : ∀ s, R s { s with pstate := .timedOut }) (hm : ∀ s, R s { s with pstate := .measuring })
    (hw : ∀ s, s.pollBudget.ult s.params.pollPeriod.ms = false →
      R s { s with pollBudget := s.pollBudget - s.params.pollPeriod.ms }) : Keeps R poll :=
  keeps_bind h (keeps_modify hm) fun _ => keeps_get_bind fun s => keeps_pollLoop h hd ht hw _ s

theorem keeps_fetchRaw (h : CallClosed R) (hd : ∀ s, R s { s with pollBudget := s.params.pollCeilingMs, pstate := .ready })
    (ht : ∀ s, R s { s with pstate := .timedOut }) (hm : ∀ s, R s { s with pstate := .measuring })
    (ha : ∀ s, R s { s with pollBudget := s.params.pollCeilingMs })
    (hw : ∀ s, s.pollBudget.ult s.params.pollPeriod.ms = false →
      R s { s with pollBudget := s.pollBudget - s.params.pollPeriod.ms }) (base : Byte) : Keeps R (fetchRaw base) :=
  keeps_bind h (keeps_modify ha) fun _ => keeps_bind h (keeps_poll h hd ht hm hw) fun _ =>
    keeps_bind h (keeps_memRead h _ _) fun _ => keeps_pure h _

theorem keeps_altQuick (h : CallClosed R) (p : U32) : Keeps R (altQuick p) :=
  keeps_bind h (keeps_power h _ _) fun _ => keeps_pure h _

theorem keeps_retrigger (h : CallClosed R) : Keeps R retrigger := by
  refine keeps_get_bind fun s => ?_
  by_cases hm : s.mode = .forced
  · rw [if_pos hm]
    exact keeps_codecSet h _ _ _ _ s
  · rw [if_neg hm]
    exact h.refl s

/-- A command keeps what its own steps keep, if the fault state and the response keep it too. -/
theorem keeps_checked (h : CallClosed R) (hf : ∀ s c, R s { s with fault := true, faultCause := c })
    {needsReady : Bool} {body : Proc RspVal} (hb : Keeps R body) (s : State) : R s (checked needsReady body s) := by
  have hfault : ∀ t c, R t (t.enterFault c) := fun t c => h.trans _ _ _ (hf t c) (h.log _ _)
  rcases checked_cases needsReady body s with h1 | h1 | h1 | h1 | h1
  · rw [h1.2]; exact h.log _ _
  · rw [h1.2.2]; exact h.log _ _
  · rw [h1.2.2.2]; exact h.log _ _
  · rw [h1.2.2.2.2.2]; exact hfault _ _
  · rw [h1.2.2.2.2]
    have h2 := hb s
    revert h2
    cases body s with
    | ok v t => intro h2; exact h.trans _ _ _ h2 (h.log _ _)
    | error e t =>
      intro h2
      cases e with
      | raise c => exact h.trans _ _ _ h2 (h.log _ _)
      | fault c => exact h.trans _ _ _ h2 (hfault _ _)

end Sys2Proof.Machine
end

