-- ==== Sys2Proof/Laws/SameBlock.lean ====
section
/-! SUPPORT. The relations the claims are made in, `sameBlock` and `sameSensorBut`: that they compose, and how the steps
of a procedure meet them. -/

namespace Sys2Proof.Machine

/-! ### Every block register is the same -/

theorem sameBlock_refl (s : State) : sameBlock s s := rfl

theorem sameBlock_iff (s t : State) :
    sameBlock s t ↔ t.lifecycle = s.lifecycle ∧ t.mode = s.mode ∧ t.addrValid = s.addrValid ∧ t.cal = s.cal ∧
      t.calValid = s.calValid ∧ t.tFine = s.tFine ∧ t.tFineValid = s.tFineValid ∧ t.pollBudget = s.pollBudget ∧
      t.pstate = s.pstate ∧ t.fault = s.fault ∧ t.faultCause = s.faultCause ∧ t.params = s.params ∧
      t.host = s.host := by
  cases s
  cases t
  simp only [sameBlock, State.mk.injEq]
  tauto

theorem sameBlock_trans {s t u : State} (h1 : sameBlock s t) (h2 : sameBlock t u) : sameBlock s u := by
  rw [sameBlock_iff] at *
  simp_all

theorem sameBlock_symm {s t : State} (h : sameBlock s t) : sameBlock t s := by
  rw [sameBlock_iff] at *
  simp_all

theorem sameBlock_params {s t : State} (h : sameBlock s t) : t.params = s.params := by
  rw [sameBlock_iff] at h
  exact h.2.2.2.2.2.2.2.2.2.2.2.1

theorem sameBlock_nextAnswer (s : State) : sameBlock s s.nextAnswer.2 := by simp [sameBlock_iff]

theorem sameBlock_log (s : State) (e : Event) : sameBlock s (s.log e) := rfl

theorem sameBlock_beforeRead (s : State) (a : Answer) (reg : Byte) (n : Nat) : sameBlock s (s.beforeRead a reg n) := by
  simp [sameBlock_iff]

theorem sameBlock_acceptBytes (s : State) (a : Nat) (bs : List Byte) : sameBlock s (s.acceptBytes a bs) := by
  simp [sameBlock_iff]

theorem sameBlock_waited (s : State) (ms : U32) : sameBlock s (s.waited ms) := by simp [sameBlock_iff]

theorem sameBlock_answers (s : State) (as : List Answer) : sameBlock s { s with answers := as } := rfl

/-- What a capability call touches, it may touch before or after a block register is written. -/
theorem sameBlock_callClosed : CallClosed sameBlock where
  refl := sameBlock_refl
  trans _ _ _ := sameBlock_trans
  answer := sameBlock_nextAnswer
  log := sameBlock_log
  before := sameBlock_beforeRead
  accept := sameBlock_acceptBytes
  waited := sameBlock_waited

theorem sameBlock_mode {s t : State} (h : sameBlock s t) (m : Mode) :
    sameBlock { s with mode := m } { t with mode := m } := by
  rw [sameBlock_iff] at *
  simp_all

/-! ### The sensor's bytes are the same outside some addresses -/

theorem sameSensorBut_refl (l : List Nat) (s : State) : sameSensorBut l s s := fun _ _ => rfl

theorem sameSensorBut_trans {l : List Nat} {s t u : State} (h1 : sameSensorBut l s t) (h2 : sameSensorBut l t u) :
    sameSensorBut l s u := fun a ha => (h2 a ha).trans (h1 a ha)

theorem sameSensorBut_mono {l l' : List Nat} {s t : State} (h : sameSensorBut l s t) (hl : ∀ a ∈ l, a ∈ l') :
    sameSensorBut l' s t := fun a ha => h a fun hm => ha (hl a hm)

theorem sameSensorBut_of_mem (l : List Nat) {s t : State} (h : t.mem = s.mem) : sameSensorBut l s t :=
  fun a _ => State.sensorByte_congr s t h a

/-- A procedure changes no sensor byte but CTRL_MEAS and CONFIG, whatever it is made of. -/
theorem sameSensorBut_callClosed : CallClosed (sameSensorBut [0xF4, 0xF5]) where
  refl := sameSensorBut_refl _
  trans _ _ _ := sameSensorBut_trans
  answer s := sameSensorBut_of_mem _ (by simp)
  log s e := sameSensorBut_of_mem _ rfl
  before s a reg n := fun b hb => State.sensorByte_beforeRead_other s a reg n b (by simp at hb; exact hb.1)
  accept s a bs := fun b hb => State.sensorByte_acceptBytes_other s a bs b (by simp at hb; exact hb.1)
    (by simp at hb; exact hb.2)
  waited s ms := sameSensorBut_of_mem _ (by simp)

end Sys2Proof.Machine
end

