-- ==== Sys2Proof/Laws/Procedures.lean ====
section
/-! SUPPORT. Everything the shared procedures do when their calls succeed, once each: the codec (40_codec section 1), the
mode controller's procedures (44_mode_controller section 1), one calibration word (41_calibration), one burst. -/

namespace Sys2Proof.Machine

/-! ### One register read -/

/-- A successful read of one register: its event, and what the byte is. -/
theorem memRead_one {s : State} {a : Answer} {rest : List Answer} (reg : Byte) (h : s.answers = a :: rest)
    (ha : a.ok = true) :
    ∃ b t, memRead reg 1 s = .ok [b] t ∧ sameBlock s t ∧ t.answers = rest ∧
      t.trace = s.trace ++ [.rd reg 1 (some [b])] ∧ sameSensorBut [0xF4] s t ∧
      (reg ≠ 0xF4#8 ∨ a.completed = false → sameSensorBut [] s t) ∧
      t.starting = (s.starting && !a.settled) ∧ b = t.seenByte reg.toNat a.b0 := by
  let u : State := { s with answers := rest }.beforeRead a reg 1
  refine ⟨u.seenByte reg.toNat a.b0, u.log (.rd reg 1 (some [u.seenByte reg.toNat a.b0])), ?_, ?_, ?_, ?_, ?_, ?_, ?_,
    ?_⟩
  · rw [memRead_ok reg 1 h ha, State.seenBytes_one]
  · exact sameBlock_trans (sameBlock_trans (sameBlock_answers s rest) (sameBlock_beforeRead _ a reg 1))
      (sameBlock_log _ _)
  · simp [u]
  · simp [u]
  · intro x hx
    exact State.sensorByte_beforeRead_other _ a reg 1 x (by simpa using hx)
  · intro hq x _
    refine State.sensorByte_beforeRead_quiet _ a reg 1 x ?_
    rcases hq with hq | hq
    · refine .inr ?_
      have : reg.toNat ≠ 0xF4 := fun h4 => hq (BitVec.eq_of_toNat_eq h4)
      omega
    · exact .inl hq
  · exact State.starting_beforeRead _ a reg 1
  · rfl

/-- A mode field that is no Forced code is not changed by a Forced completion, and one that is becomes 00. -/
theorem memRead_ctrlMeas {s : State} {a : Answer} {rest : List Answer} (h : s.answers = a :: rest) (ha : a.ok = true)
    (x : Byte) (hx : s.sensorByte 0xF4 = some x) :
    ∃ b t, memRead 0xF4#8 1 s = .ok [b] t ∧
      t.sensorByte 0xF4 = some (if a.completed && forcedCode x then x &&& 0xFC#8 else x) ∧
      (s.params.envModel = .mem → s.starting = false → b = if a.completed && forcedCode x then x &&& 0xFC#8 else x) := by
  let u : State := { s with answers := rest }.beforeRead a 0xF4#8 1
  have hm : u.sensorByte 0xF4 = some (if a.completed && forcedCode x then x &&& 0xFC#8 else x) := by
    show State.sensorByte (State.beforeRead _ _ _ _) _ = _
    unfold State.beforeRead
    dsimp only
    cases hc : a.completed with
    | false =>
      rw [if_neg (by simp)]
      split <;> exact hx
    | true =>
      rw [if_pos (by simp)]
      rw [State.sensorByte_completeForced _ x (by split <;> exact hx)]
      simp
  refine ⟨u.seenByte 0xF4 a.b0, u.log (.rd 0xF4#8 1 (some [u.seenByte 0xF4 a.b0])), ?_, hm, ?_⟩
  · rw [memRead_ok _ 1 h ha, State.seenBytes_one]
    rfl
  · intro he hs
    refine State.seenByte_held u _ _ _ ?_ (.inl ?_) hm
    · rw [State.starting_beforeRead]; simp [hs]
    · simpa [u] using he

/-! ### The codec -/

/-- The mode field cleared keeps the other six bits. -/
theorem and_fc_idem (x : Byte) : (x &&& 0xFC#8) &&& 0xFC#8 = x &&& 0xFC#8 := by
  rw [BitVec.and_assoc, BitVec.and_self]

/-- CodecSet with both calls succeeding (R75). -/
theorem codecSet_ok {s : State} {a1 a2 : Answer} {rest : List Answer} (reg value : Byte) (start width : Nat)
    (h : s.answers = a1 :: a2 :: rest) (h1 : a1.ok = true) (h2 : a2.ok = true) (hreg : reg = 0xF4#8 ∨ reg = 0xF5#8) :
    ∃ b t, codecSet reg value start width s = .ok () t ∧ sameBlock s t ∧ t.answers = rest ∧
      t.trace = s.trace ++ codecSetEvents reg b value start width ∧
      t.sensorByte reg.toNat = some (insertField b value start width) ∧ sameSensorBut [reg.toNat] s t ∧
      t.starting = (s.starting && !a1.settled) ∧
      (s.params.envModel = .mem → s.starting = false → ∀ x, s.sensorByte reg.toNat = some x →
        b = if reg = 0xF4#8 ∧ a1.completed = true ∧ forcedCode x = true then x &&& 0xFC#8 else x) := by
  obtain ⟨b, t, hr, hb, hans, htr, hs4, hsq, hst, hseen⟩ := memRead_one reg h h1
  have hreg' : storedAddr reg.toNat = true := by rcases hreg with rfl | rfl <;> decide
  have hacc : ∀ v u, State.acceptBytes u reg.toNat [v] = u.setSensorByte reg.toNat v := fun v u =>
    State.acceptBytes_config u reg v hreg
  refine ⟨b, ({ t with answers := rest }.setSensorByte reg.toNat (insertField b value start width)).log
    (.wr reg [insertField b value start width] true), ?_, ?_, ?_, ?_, ?_, ?_, ?_, ?_⟩
  · rw [codecSet, bind_run_ok hr, memWrite_ok _ _ hans h2, hacc]
    rfl
  · refine sameBlock_trans hb (sameBlock_trans (sameBlock_answers t rest) ?_)
    rw [← hacc]
    exact sameBlock_trans (sameBlock_acceptBytes _ _ _) (sameBlock_log _ _)
  · rfl
  · simp [htr, codecSetEvents]
  · exact State.sensorByte_setSensorByte_same _ _ _ hreg'
  · intro x hx
    have hx' : x ≠ reg.toNat := by simpa using hx
    refine (State.sensorByte_setSensorByte_other _ _ _ _ hx').trans ?_
    rcases hreg with hr4 | hr5
    · exact hs4 x (by subst hr4; simpa using hx)
    · exact hsq (.inl (by subst hr5; decide)) x (by simp)
  · exact hst
  · intro he hstart x hx
    have hparams : t.params = s.params := sameBlock_params hb
    have ht : t.starting = false := by rw [hst, hstart]; rfl
    rcases hreg with hr4 | hr5
    · subst hr4
      obtain ⟨b', t', hr', hm', hb'⟩ := memRead_ctrlMeas h h1 x hx
      rw [hr] at hr'
      cases hr'
      rw [hb' he hstart]
      simp
    · rw [hseen, if_neg (by subst hr5; simp)]
      refine State.seenByte_held t _ _ _ ht (.inl (by rw [hparams]; exact he)) ?_
      rw [hsq (.inl (by subst hr5; decide)) _ (by simp)]
      exact hx

/-- CodecGet with its call succeeding (R76). -/
theorem codecGet_ok {s : State} {a : Answer} {rest : List Answer} (reg : Byte) (start width : Nat)
    (h : s.answers = a :: rest) (ha : a.ok = true) :
    ∃ b t, codecGet reg start width s = .ok (extractField b start width) t ∧ sameBlock s t ∧ t.answers = rest ∧
      t.trace = s.trace ++ [.rd reg 1 (some [b])] ∧ sameSensorBut [0xF4] s t ∧
      (reg ≠ 0xF4#8 ∨ a.completed = false → sameSensorBut [] s t) ∧
      t.starting = (s.starting && !a.settled) ∧ b = t.seenByte reg.toNat a.b0 := by
  obtain ⟨b, t, hr, hrest⟩ := memRead_one reg h ha
  exact ⟨b, t, by rw [codecGet, bind_run_ok hr]; rfl, hrest⟩

/-- The field the byte of a successful CodecGet was read as, under ENV-MEM past the startup time with no completion. -/
theorem seenByte_quiet {s t : State} {a : Answer} {reg : Byte} (hb : sameBlock s t)
    (hq : reg ≠ 0xF4#8 ∨ a.completed = false → sameSensorBut [] s t) (hst : t.starting = (s.starting && !a.settled))
    (he : s.params.envModel = .mem) (hs : s.starting = false) (hc : a.completed = false) (x : Byte)
    (hx : s.sensorByte reg.toNat = some x) : t.seenByte reg.toNat a.b0 = x := by
  have hparams : t.params = s.params := sameBlock_params hb
  refine State.seenByte_held t _ _ _ (by rw [hst, hs]; rfl) (.inl (by rw [hparams]; exact he)) ?_
  rw [hq (.inr hc) _ (by simp)]
  exact hx

/-! ### The mode controller's procedures -/

/-- The byte CodecSet writes for a mode. -/
theorem insertField_mode (b : Byte) (m : Mode) :
    insertField b (m.code.setWidth 8) 0 2 = (b &&& 0xFC#8) ||| m.code.setWidth 8 := by
  revert b
  cases m <;> decide

/-- SetModeProc with both calls succeeding (R104). -/
theorem setModeProc_ok {s : State} {a1 a2 : Answer} {rest : List Answer} (m : Mode)
    (h : s.answers = a1 :: a2 :: rest) (h1 : a1.ok = true) (h2 : a2.ok = true) :
    ∃ b t, setModeProc m s = .ok () t ∧ sameBlock { s with mode := m } t ∧ t.answers = rest ∧
      t.trace = s.trace ++
        [.rd 0xF4#8 1 (some [b]), .wr 0xF4#8 [(b &&& 0xFC#8) ||| m.code.setWidth 8] true] ∧
      t.sensorByte 0xF4 = some ((b &&& 0xFC#8) ||| m.code.setWidth 8) ∧ sameSensorBut [0xF4] s t ∧
      t.starting = (s.starting && !a1.settled) ∧
      (s.params.envModel = .mem → s.starting = false → ∀ x, s.sensorByte 0xF4 = some x →
        b = if a1.completed = true ∧ forcedCode x = true then x &&& 0xFC#8 else x) := by
  obtain ⟨b, t, hr, hb, hans, htr, hf4, hsens, hst, hval⟩ :=
    codecSet_ok 0xF4#8 (m.code.setWidth 8) 0 2 h h1 h2 (.inl rfl)
  rw [insertField_mode] at hf4
  refine ⟨b, { t with mode := m }, ?_, ?_, hans, ?_, hf4, hsens, hst, ?_⟩
  · rw [setModeProc, bind_run_ok hr]
    rfl
  · rw [sameBlock_iff] at *
    simp_all
  · rw [← insertField_mode]
    exact htr
  · intro he hs x hx
    simpa using hval he hs x hx

/-- SetSleepOnly with all six calls succeeding (R105). -/
theorem setSleepOnly_ok {s : State} {a1 a2 a3 a4 a5 a6 : Answer} {rest : List Answer} (reg : Byte) (start : Nat)
    (code : BitVec 3) (h : s.answers = a1 :: a2 :: a3 :: a4 :: a5 :: a6 :: rest) (h1 : a1.ok = true) (h2 : a2.ok = true)
    (h3 : a3.ok = true) (h4 : a4.ok = true) (h5 : a5.ok = true) (h6 : a6.ok = true)
    (hreg : reg = 0xF4#8 ∨ reg = 0xF5#8) :
    ∃ b0 b1 b2 t, setSleepOnly reg start code s = .ok () t ∧ sameBlock s t ∧ t.answers = rest ∧
      t.trace = s.trace ++ sleepOnlyEvents s.mode reg start code b0 b1 b2 ∧
      t.sensorByte 0xF4 = some ((b2 &&& 0xFC#8) ||| s.mode.code.setWidth 8) ∧
      (reg = 0xF5#8 → t.sensorByte 0xF5 = some (insertField b1 (code.setWidth 8) start 3)) ∧
      (reg = 0xF4#8 → sameSensorBut [0xF4] s t) ∧ sameSensorBut [0xF4, 0xF5] s t ∧
      (s.starting = false → t.starting = false) ∧
      (s.params.envModel = .mem → s.starting = false →
        ∀ x y, s.sensorByte 0xF4 = some x → s.sensorByte 0xF5 = some y →
          b0 = (if a1.completed = true ∧ forcedCode x = true then x &&& 0xFC#8 else x) ∧
          b1 = (if reg = 0xF4#8 then x &&& 0xFC#8 else y) ∧
          (b2 = (if reg = 0xF4#8 then insertField (x &&& 0xFC#8) (code.setWidth 8) start 3 else x &&& 0xFC#8) ∨
            a5.completed = true ∧ b2 &&& 0xFC#8 =
              (if reg = 0xF4#8 then insertField (x &&& 0xFC#8) (code.setWidth 8) start 3 else x &&& 0xFC#8) &&&
                0xFC#8)) := by
  obtain ⟨b0, t0, r0, hb0, ha0, htr0, h40, hs0, hst0, hv0⟩ := setModeProc_ok .sleep h h1 h2
  obtain ⟨b1, t1, r1, hb1, ha1, htr1, hf1, hs1, hst1, hv1⟩ :=
    codecSet_ok reg (code.setWidth 8) start 3 ha0 h3 h4 hreg
  obtain ⟨b2, t2, r2, hb2, ha2, htr2, h42, hs2, hst2, hv2⟩ := setModeProc_ok s.mode ha1 h5 h6
  have sleepCode : ∀ b : Byte, (b &&& 0xFC#8) ||| Mode.sleep.code.setWidth 8 = b &&& 0xFC#8 := by decide
  refine ⟨b0, b1, b2, t2, ?_, ?_, ha2, ?_, h42, ?_, ?_, ?_, ?_, ?_⟩
  · show (setModeProc .sleep >>= fun _ => codecSet reg (code.setWidth 8) start 3 >>= fun _ => setModeProc s.mode) s = _
    rw [bind_run_ok r0, bind_run_ok r1, r2]
  · rw [sameBlock_iff] at *
    simp_all
  · rw [htr2, htr1, htr0]
    simp only [sleepOnlyEvents, codecSetEvents, sleepCode, List.append_assoc, List.cons_append, List.nil_append]
  · intro h5'
    subst h5'
    rw [hs2 _ (by decide)]
    exact hf1
  · intro h4'
    subst h4'
    exact sameSensorBut_trans hs0 (sameSensorBut_trans hs1 hs2)
  · refine sameSensorBut_trans (sameSensorBut_mono hs0 (by simp)) (sameSensorBut_trans (sameSensorBut_mono hs1 ?_)
      (sameSensorBut_mono hs2 (by simp)))
    rcases hreg with rfl | rfl <;> simp
  · intro hs
    simp [hst2, hst1, hst0, hs]
  · intro he hs x y hx hy
    have hp0 : t0.params = s.params := (sameBlock_params hb0 :)
    have hp1 : t1.params = s.params := (sameBlock_params hb1).trans hp0
    have hst0' : t0.starting = false := by rw [hst0, hs]; rfl
    have hst1' : t1.starting = false := by rw [hst1, hst0']; rfl
    have hv0 := hv0 he hs x hx
    have hx0 : (b0 &&& 0xFC#8) = x &&& 0xFC#8 := by
      rw [hv0]
      split
      · exact and_fc_idem x
      · rfl
    rw [sleepCode, hx0] at h40
    have hy0 : t0.sensorByte 0xF5 = some y := (hs0 _ (by decide)).trans hy
    have notForced : ∀ z : Byte, forcedCode (z &&& 0xFC#8) = false := by decide
    have hv1 := hv1 (by rw [hp0]; exact he) hst0'
    have hb1 : b1 = if reg = 0xF4#8 then x &&& 0xFC#8 else y := by
      rcases hreg with rfl | rfl
      · rw [hv1 _ h40]
        simp [notForced]
      · rw [hv1 _ hy0]
        simp
    refine ⟨hv0, hb1, ?_⟩
    have h41 : t1.sensorByte 0xF4 =
        some (if reg = 0xF4#8 then insertField (x &&& 0xFC#8) (code.setWidth 8) start 3 else x &&& 0xFC#8) := by
      rcases hreg with rfl | rfl
      · rw [if_pos rfl] at hb1 ⊢
        rw [← hb1]
        exact hf1
      · rw [if_neg (by decide)]
        exact (hs1 _ (by decide)).trans h40
    have hv2 := hv2 (by rw [hp1]; exact he) hst1' _ h41
    generalize (if reg = 0xF4#8 then insertField (x &&& 0xFC#8) (code.setWidth 8) start 3 else x &&& 0xFC#8) = z at hv2 ⊢
    by_cases hc : a5.completed = true ∧ forcedCode z = true
    · rw [if_pos hc] at hv2
      exact .inr ⟨hc.1, by rw [hv2, and_fc_idem]⟩
    · rw [if_neg hc] at hv2
      exact .inl hv2

/-- SoftReset with its call succeeding (R106). -/
theorem softReset_ok {s : State} {a : Answer} {rest : List Answer} (h : s.answers = a :: rest) (ha : a.ok = true) :
    softReset s = .ok () { ({ s with answers := rest }.sensorReset.log (.wr 0xE0#8 [0xB6#8] true)) with mode := .sleep } := by
  rw [softReset, bind_run_ok (memWrite_ok _ _ h ha), State.acceptBytes_reset]
  rfl

/-- CheckIdProc with its call succeeding past the startup time (R107). -/
theorem checkIdProc_ok {s : State} {a : Answer} {rest : List Answer} {id : Byte} (h : s.answers = a :: rest)
    (ha : a.ok = true) (hs : s.starting = false) (hid : s.sensorByte 0xD0 = some id) :
    ∃ t, sameBlock s t ∧ t.answers = rest ∧ t.trace = s.trace ++ [.rd 0xD0#8 1 (some [id])] ∧ sameSensorBut [] s t ∧
      t.starting = false ∧
      checkIdProc s = if id = 0x58#8 then .ok id t
        else .error (.raise .sensorIdError) { t with addrValid := false, lifecycle := .uninit } := by
  obtain ⟨b, t, hr, hb, hans, htr, _, hsq, hst, hseen⟩ := memRead_one 0xD0#8 h ha
  have hq := hsq (.inl (by decide))
  have hbid : b = id := by
    rw [hseen]
    refine State.seenByte_held t _ _ _ (by rw [hst, hs]; rfl) (.inr (by decide)) ?_
    rw [hq _ (by simp)]
    exact hid
  subst hbid
  refine ⟨t, hb, hans, htr, hq, by rw [hst, hs]; rfl, ?_⟩
  rw [checkIdProc, bind_run_ok hr]
  by_cases h58 : b = 0x58#8
  · subst h58; rfl
  · show (if b ≠ 0x58#8 then _ else _ : Proc Byte) t = _
    rw [if_pos h58, if_neg h58]
    rfl

/-! ### Calibration words and bursts -/

/-- A successful 2-byte read, as a little-endian word (R80). -/
theorem readCalWord_ok {s : State} {a : Answer} {rest : List Answer} (reg : Byte) (h : s.answers = a :: rest)
    (ha : a.ok = true) (hreg : constantAddr reg.toNat = true ∧ constantAddr (reg.toNat + 1) = true) :
    ∃ b0 b1 t, readCalWord reg s = .ok (wordOfBytes b0 b1) t ∧ sameBlock s t ∧ t.answers = rest ∧
      t.trace = s.trace ++ [.rd reg 2 (some [b0, b1])] ∧ sameSensorBut [] s t ∧
      t.starting = (s.starting && !a.settled) ∧
      (s.starting = false → (∀ x, s.sensorByte reg.toNat = some x → b0 = x) ∧
        ∀ x, s.sensorByte (reg.toNat + 1) = some x → b1 = x) := by
  let u : State := { s with answers := rest }.beforeRead a reg 2
  have hq : ∀ x, u.sensorByte x = s.sensorByte x := fun x => by
    refine State.sensorByte_beforeRead_quiet _ a reg 2 x (.inr ?_)
    have h1 := hreg.2
    simp [constantAddr] at h1
    omega
  have hst : u.starting = (s.starting && !a.settled) := State.starting_beforeRead _ a reg 2
  refine ⟨u.seenByte reg.toNat a.b0, u.seenByte (reg.toNat + 1) a.b1,
    u.log (.rd reg 2 (some [u.seenByte reg.toNat a.b0, u.seenByte (reg.toNat + 1) a.b1])), ?_, ?_, ?_, ?_, ?_, hst, ?_⟩
  · rw [readCalWord, bind_run_ok (memRead_ok reg 2 h ha), State.seenBytes_two]
    rfl
  · exact sameBlock_trans (sameBlock_trans (sameBlock_answers s rest) (sameBlock_beforeRead _ a reg 2))
      (sameBlock_log _ _)
  · simp [u]
  · simp [u]
  · exact fun x _ => hq x
  · intro hs
    have hs' : u.starting = false := by rw [hst, hs]; rfl
    exact ⟨fun x hx => State.seenByte_held u _ _ _ hs' (.inr hreg.1) ((hq _).trans hx),
      fun x hx => State.seenByte_held u _ _ _ hs' (.inr hreg.2) ((hq _).trans hx)⟩

/-- A successful burst of three registers without a content: the bytes drawn. -/
theorem memRead_burst {s : State} {a : Answer} {rest : List Answer} (reg : Byte) (h : s.answers = a :: rest)
    (ha : a.ok = true) (hreg : 0xF6 ≤ reg.toNat) :
    ∃ t, memRead reg 3 s = .ok [a.b0, a.b1, a.b2] t ∧ sameBlock s t ∧ t.answers = rest ∧
      t.trace = s.trace ++ [.rd reg 3 (some [a.b0, a.b1, a.b2])] ∧ sameSensorBut [] s t := by
  let u : State := { s with answers := rest }.beforeRead a reg 3
  have hun : ∀ k : Nat, 0xF6 ≤ k → u.sensorByte k = none := by
    intro k hk
    refine State.sensorByte_unlisted _ _ ?_
    simp only [storedAddr, constantAddr, Bool.or_eq_false_iff, Bool.and_eq_false_iff, decide_eq_false_iff_not,
      beq_eq_false_iff_ne]
    omega
  refine ⟨u.log (.rd reg 3 (some [a.b0, a.b1, a.b2])), ?_, ?_, ?_, ?_, ?_⟩
  · rw [memRead_ok reg 3 h ha, State.seenBytes_three, State.seenByte_none _ _ _ (hun _ hreg) (.inl (by omega)),
      State.seenByte_none _ _ _ (hun _ (by omega)) (.inl (by omega)),
      State.seenByte_none _ _ _ (hun _ (by omega)) (.inl (by omega))]
  · exact sameBlock_trans (sameBlock_trans (sameBlock_answers s rest) (sameBlock_beforeRead _ a reg 3))
      (sameBlock_log _ _)
  · simp [u]
  · simp [u]
  · exact fun x _ => State.sensorByte_beforeRead_quiet _ a reg 3 x (.inr (by omega))

/-! ### Served commands -/

/-- A command of an operational instance runs its own steps (R135). -/
theorem runCommand_operational {s : State} (h : s.operational) (needsReady : Bool) (body : Proc RspVal) :
    runCommand needsReady body s = .next (conclude (body s)) := by
  rw [runCommand, checked_pass h.1.1 h.1.2.1 h.1.2.2 (.inr h.2)]

/-- INIT runs its own steps even from Uninit (R135). -/
theorem runCommand_serving {s : State} (h : s.serving) (body : Proc RspVal) :
    runCommand false body s = .next (conclude (body s)) := by
  rw [runCommand, checked_pass h.1 h.2.1 h.2.2 (.inl rfl)]

/-- A command never stops the machine (R137): its outcome is always a next state. -/
theorem runCommand_next (needsReady : Bool) (body : Proc RspVal) (s : State) :
    runCommand needsReady body s = .next (checked needsReady body s) := rfl

end Sys2Proof.Machine
end

