-- ==== Sys2Proof/Tests/Slice0.lean ====
section
/-! SUPPORT. Tests against the values of 95_test_vectors and the spec's tables, the well-formedness smoke tests, the
decoder's and the encoder's words, and a witness for the hypotheses of each statement that has any. -/

open Sys2Proof Sys2Proof.Machine

namespace Sys2Proof.Tests

/-! ## The bench -/

/-- A call that succeeds, with no draw used and bytes of 0. -/
def okAnswer : Answer := ⟨true, false, false, false, 0, 0, 0, 0⟩

/-- A call that fails without an effect. -/
def failAnswer : Answer := { okAnswer with ok := false }

/-- A successful read of STATUS with its measuring bit set. -/
def busyAnswer : Answer := { okAnswer with b0 := 0x08 }

/-- The temperature burst and the pressure burst of 95_test_vectors section 2.8. -/
def burstT : Answer := { okAnswer with b0 := 0x7E, b1 := 0xED }
def burstP : Answer := { okAnswer with b0 := 0x65, b1 := 0x5A, b2 := 0xC0 }

/-- The parameters of 95_test_vectors section 3. -/
def bench : Params where
  handlePresent := true
  capPresent := ⟨true, true, true, true, true, true⟩
  pollCeilingMs := 10
  pollPeriod := ⟨2, by decide⟩
  startupDelayMs := 2
  busSel := none
  mode10Decode := .forced
  envModel := .mem
  resetRead := .draw

/-- The calibration set REF. -/
def ref : Calib := ⟨27504, 26435, -1000, 36477, -10685, 3024, 2855, 140, -7, 15500, -14600, 6000⟩

/-- REF's NVM bytes (R85). -/
def refNvm : List Byte :=
  [0x70, 0x6B, 0x43, 0x67, 0x18, 0xFC, 0x7D, 0x8E, 0x43, 0xD6, 0xD0, 0x0B] ++
    [0x27, 0x0B, 0x8C, 0x00, 0xF9, 0xFF, 0x8C, 0x3C, 0xF8, 0xC6, 0x70, 0x17]

/-- A sensor with REF's NVM, a chip ID and the two configuration bytes. -/
def sensor (id f4 f5 : Byte) : Memory := (refNvm.zipIdx.map fun p => (0x88 + p.2, p.1)) ++ [(0xD0, id), (0xF4, f4), (0xF5, f5)]

/-- A Ready instance in Sleep, configured as INIT leaves it, with the given answers to come. -/
def ready (answers : List Answer) : State :=
  { State.reset with
    lifecycle := .ready, addrValid := true, cal := ref, calValid := true, tFine := 128422, pollBudget := 10,
    params := bench, mem := sensor 0x58 0x24 0x40, answers := answers }

/-- A Ready instance in a mode, with CTRL_MEAS and CONFIG as given. -/
def readyIn (mode : Mode) (f4 f5 : Byte) (answers : List Answer) : State :=
  { ready answers with mode := mode, mem := sensor 0x58 f4 f5 }

/-- A Ready instance with a valid T_FINE of 128422. -/
def warm (answers : List Answer) : State := { ready answers with tFineValid := true }

/-- Power-on reset on the bench, with a chip ID (V-M9's configuration bytes). -/
def cold (id : Byte) (answers : List Answer) : State :=
  { State.reset with
    cal := ref, tFine := 0, pollBudget := 10, params := bench, mem := sensor id 0x5B 0x1C, answers := answers }

/-- The state a command leaves. -/
def after (o : Host.Outcome State Fault Refusal) : State :=
  match o with
  | .next t => t
  | .fault _ => State.reset
  | .refused _ => State.reset

/-- The capability calls' writes in a trace, in order: address and byte. -/
def writes (t : List Event) : List (Byte × List Byte) :=
  t.filterMap fun e => match e with
    | .wr r bs _ => some (r, bs)
    | .cmd _ => none
    | .rsp _ _ => none
    | .rd _ _ _ => none
    | .dly _ _ => none
    | .ifI _ => none
    | .ifD _ => none
    | .pow _ _ _ => none

/-! ## Well-formedness -/

theorem test_wf_width_zero : (Instr.setField 0xF5 2 0 4).wf = false := by decide

theorem test_wf_width_nine : (Instr.getField 0xF5 0 9).wf = false := by decide

theorem test_wf_past_the_byte : (Instr.getField 0xF5 3 6).wf = false := by decide

theorem test_wf_target : (Instr.setField 0xF3 2 3 4).wf = false := by decide

theorem test_wf_start : (Instr.setField 0xF4 1 3 4).wf = false := by decide

theorem test_wf_legal : (Instr.setField 0xF5 2 6 4).wf = true ∧ (Instr.getField 0x00 0 8).wf = true := by decide

/-! ## Words (95_test_vectors section 2.1), both ways -/

theorem test_decode_setField : decode 0x01F52304 = .ok (.setField 0xF5 2 3 4) ∧ encode (.setField 0xF5 2 3 4) = 0x01F52304 := by
  decide

theorem test_decode_setField_to_the_top : decode 0x01F52604 = .ok (.setField 0xF5 2 6 4) := by decide

theorem test_decode_getField : decode 0x02F45300 = .ok (.getField 0xF4 5 3) ∧ encode (.getField 0xF4 5 3) = 0x02F45300 := by
  decide

theorem test_decode_getField_any : decode 0x02000800 = .ok (.getField 0x00 0 8) := by decide

theorem test_decode_bare :
    [0x10000000, 0x11000000, 0x12000000, 0x13000000, 0x30000000, 0x31000000, 0x32000000, 0x33000000, 0x34000000,
      0x50000000, 0x51000000, 0x52000000].map (decodeTableWord 32) =
    [some .init, some .deinit, some .checkId, some .reset, some .getMode, some .getOsrsP, some .getOsrsT,
      some .getStandby, some .getFilter, some .getTemperature, some .getPressure, some .getAll] := by
  decide

theorem test_encode_bare :
    [Instr.init, .deinit, .checkId, .reset, .getMode, .getOsrsP, .getOsrsT, .getStandby, .getFilter, .getTemperature,
      .getPressure, .getAll].map encode =
    [0x10000000, 0x11000000, 0x12000000, 0x13000000, 0x30000000, 0x31000000, 0x32000000, 0x33000000, 0x34000000,
      0x50000000, 0x51000000, 0x52000000] := by
  decide

theorem test_decode_setMode :
    [0x20000000, 0x20000001, 0x20000002, 0x20000003, 0x20000004].map (decodeTableWord 32) =
    [some (.setMode .sleep), some (.setMode .forced), none, some (.setMode .normal), none] := by
  decide

theorem test_decode_setOsrsP : decode 0x21000005 = .ok (.setOsrsP .x16) ∧ decode 0x21000006 = .error .illegalCode := by
  decide

theorem test_decode_setOsrsT : decode 0x22000002 = .ok (.setOsrsT .x2) ∧ decode 0x22000007 = .error .illegalCode := by
  decide

theorem test_decode_setStandby : decode 0x23000007 = .ok (.setStandby .ms4000) := by decide

theorem test_decode_setFilter :
    decode 0x24000004 = .ok (.setFilter .c16) ∧ decode 0x24000005 = .error .illegalCode ∧
      decode 0x24000008 = .error .mustBeZero := by
  decide

theorem test_encode_setters :
    [Instr.setMode .normal, .setOsrsP .x16, .setOsrsT .x2, .setStandby .ms4000, .setFilter .c16].map encode =
      [0x20000003, 0x21000005, 0x22000002, 0x23000007, 0x24000004] := by
  decide

theorem test_decode_configureAll :
    decode 0x25001280 = .ok (.configureAll .x1 .x1 .ms125 .off .sleep) ∧
      decode 0x25005BE3 = .ok (.configureAll .x16 .x16 .ms4000 .c16 .normal) ∧
      encode (.configureAll .x16 .x16 .ms4000 .c16 .normal) = 0x25005BE3 := by
  decide

theorem test_decode_comp :
    decode 0x4007EED0 = .ok (.compT 519888) ∧ decode 0x400FFFFF = .ok (.compT 1048575) ∧
      decode 0x410655AC = .ok (.compP 415148) ∧ encode (.compT 519888) = 0x4007EED0 ∧
      encode (.compP 415148) = 0x410655AC := by
  decide

theorem test_decode_illegal :
    [0x00000000, 0xFFFFFFFF, 0x10000001, 0x25001282, 0x25001284, 0x25006280, 0x25008000, 0x250012A8, 0x01F40304,
      0x01F53604, 0x01F5A304, 0x01F32304, 0x01F52004, 0x01F52904, 0x02F45301, 0x40100000, 0x35000000, 0x53000000,
      0x03000000].map (decodeTableWord 32) = List.replicate 19 none := by
  decide

/-- A row's word given with fewer bits has zeros above them. -/
theorem test_decodeTableWord_short : decodeTableWord 24 0x10000000 = none ∧ decodeTableWord 32 0x10000000 = some .init := by
  decide

theorem test_withFetchWord : (State.reset.withFetchWord 32 0x52000000).host = [0x52000000] := by decide

/-! ## The codec (V-C1 to V-C10) -/

theorem test_insertField :
    insertField 0xAE 4 2 3 = 0xB2 ∧ insertField 0x00 0xFF 5 3 = 0xE0 ∧ insertField 0xFF 0x00 5 3 = 0x1F ∧
      insertField 0x5A 0xC3 0 8 = 0xC3 ∧ insertField 0x00 1 7 1 = 0x80 ∧ insertField 0x24 3 0 2 = 0x27 := by
  decide

theorem test_extractField :
    extractField 0x37 5 3 = 0x01 ∧ extractField 0x37 2 3 = 0x05 ∧ extractField 0x08 3 1 = 1 ∧
      extractField 0xF7 3 1 = 0 ∧ extractField 0xA5 0 8 = 0xA5 := by
  decide

/-- P7: `Rd F5 40`, `Wr F5 50`. -/
theorem test_setField :
    (after (exec (.setField 0xF5 2 3 4) (ready [okAnswer, okAnswer]))).trace =
      [.rd 0xF5 1 (some [0x40]), .wr 0xF5 [0x50] true, .rsp .ok .absent] := by
  decide

/-- V-E5. -/
theorem test_setField_in_normal :
    (after (exec (.setField 0xF5 2 3 0) (readyIn .normal 0x27 0x40 []))).faultCause = .sleepOnlyActive := by
  decide

/-- V-C7. -/
theorem test_getField :
    (after (exec (.getField 0xF4 5 3) (readyIn .normal 0x37 0x40 [okAnswer]))).trace =
      [.rd 0xF4 1 (some [0x37]), .rsp .ok (.byte 0x01)] := by
  decide

/-- R49: RESET reads as drawn. R31: where its value is assumed, it reads as 0x00 under ENV-MEM, whatever was drawn; under
ENV-FREE as drawn all the same (log 19). -/
theorem test_getField_reset :
    let zero : Params := { bench with resetRead := .zero }
    let run (p : Params) := (after (exec (.getField 0xE0 0 8) { ready [busyAnswer] with params := p })).trace
    run bench = [.rd 0xE0 1 (some [0x08]), .rsp .ok (.byte 0x08)] ∧
    run zero = [.rd 0xE0 1 (some [0x00]), .rsp .ok (.byte 0x00)] ∧
    run { zero with envModel := .free } = [.rd 0xE0 1 (some [0x08]), .rsp .ok (.byte 0x08)] := by
  decide

/-- V-C9: STATUS has no content, so its byte is the draw. -/
theorem test_getField_status :
    (after (exec (.getField 0xF3 3 1) (ready [busyAnswer]))).trace = [.rd 0xF3 1 (some [0x08]), .rsp .ok (.byte 1)] := by
  decide

/-! ## Lifecycle (V-M9, V-M15 to V-M18, V-K2) -/

/-- V-M9: 42 events, the block's end state and the sensor's. -/
theorem test_init :
    let t := after (exec .init (cold 0x58 (List.replicate 42 okAnswer)))
    t.trace.length = 43 ∧ t.lifecycle = .ready ∧ t.cal = ref ∧ t.calValid = true ∧ t.mode = .sleep ∧
      t.tFineValid = false ∧ t.sensorByte 0xF4 = some 0x24 ∧ t.sensorByte 0xF5 = some 0x40 := by
  decide +kernel

/-- V-K2: the fifth calibration read fails. -/
theorem test_init_calibration_fails :
    let t := after (exec .init (cold 0x58 (List.replicate 8 okAnswer ++ [failAnswer])))
    t.calValid = false ∧ t.lifecycle = .uninit ∧
      t.trace.drop 8 = [.rd 0x90 2 none, .rsp .interfaceError .absent] := by
  decide +kernel

/-- V-M18. -/
theorem test_deinit :
    let t := after (exec .deinit (readyIn .normal 0x27 0x40 [okAnswer, okAnswer]))
    t.trace = [.wr 0xE0 [0xB6] true, .ifD true, .rsp .ok .absent] ∧ t.lifecycle = .uninit ∧ t.mode = .sleep := by
  decide

/-- A failed reset write leaves the instance Uninit all the same (R111). -/
theorem test_deinit_write_fails :
    let t := after (exec .deinit (readyIn .normal 0x27 0x40 [failAnswer]))
    t.trace = [.wr 0xE0 [0xB6] false, .rsp .interfaceError .absent] ∧ t.lifecycle = .uninit ∧ t.mode = .normal := by
  decide

/-- V-M15. -/
theorem test_checkId :
    (after (exec .checkId (ready [okAnswer]))).trace = [.rd 0xD0 1 (some [0x58]), .rsp .ok (.byte 0x58)] := by
  decide

/-- V-M16. -/
theorem test_checkId_wrong :
    let t := after (exec .checkId { ready [okAnswer] with mem := sensor 0x60 0x24 0x40 })
    t.trace = [.rd 0xD0 1 (some [0x60]), .rsp .sensorIdError .absent] ∧ t.lifecycle = .uninit ∧ t.addrValid = false := by
  decide

/-- V-M17. -/
theorem test_reset :
    let t := after (exec .reset (readyIn .normal 0x27 0x40 [okAnswer]))
    t.trace = [.wr 0xE0 [0xB6] true, .rsp .ok .absent] ∧ t.mode = .sleep ∧ t.sensorByte 0xF4 = some 0x00 ∧
      t.sensorByte 0xF5 = some 0x00 := by
  decide

/-! ## Setters (V-M1 to V-M8) -/

/-- V-M7. -/
theorem test_setMode :
    let t := after (exec (.setMode .normal) (ready [okAnswer, okAnswer]))
    writes t.trace = [(0xF4, [0x27])] ∧ t.mode = .normal := by
  decide

/-- V-M1. -/
theorem test_setOsrsP :
    let t := after (exec (.setOsrsP .x16) (readyIn .normal 0x27 0x40 (List.replicate 6 okAnswer)))
    writes t.trace = [(0xF4, [0x24]), (0xF4, [0x34]), (0xF4, [0x37])] ∧ t.mode = .normal := by
  decide +kernel

/-- V-M6: the field write fails. -/
theorem test_setOsrsP_fails :
    let t := after (exec (.setOsrsP .x16) (readyIn .normal 0x27 0x40 (List.replicate 3 okAnswer ++ [failAnswer])))
    writes t.trace = [(0xF4, [0x24]), (0xF4, [0x34])] ∧ t.mode = .sleep := by
  decide +kernel

/-- V-M2. -/
theorem test_setOsrsT :
    let t := after (exec (.setOsrsT .x2) (ready (List.replicate 6 okAnswer)))
    writes t.trace = [(0xF4, [0x24]), (0xF4, [0x44]), (0xF4, [0x44])] ∧ t.mode = .sleep := by
  decide +kernel

/-- V-M3. -/
theorem test_setStandby :
    let t := after (exec (.setStandby .ms1000) (readyIn .normal 0x27 0x40 (List.replicate 6 okAnswer)))
    writes t.trace = [(0xF4, [0x24]), (0xF5, [0xA0]), (0xF4, [0x27])] ∧ t.mode = .normal := by
  decide +kernel

/-- V-M4. -/
theorem test_setFilter :
    let t := after (exec (.setFilter .c16) (readyIn .sleep 0x24 0x41 (List.replicate 6 okAnswer)))
    writes t.trace = [(0xF4, [0x24]), (0xF5, [0x51]), (0xF4, [0x24])] ∧ t.mode = .sleep := by
  decide +kernel

/-- V-M5: in Forced mode the restore starts a new conversion. -/
theorem test_setFilter_forced :
    let t := after (exec (.setFilter .c2) (readyIn .forced 0x24 0x40 (List.replicate 6 okAnswer)))
    writes t.trace = [(0xF4, [0x24]), (0xF5, [0x44]), (0xF4, [0x25])] ∧ t.mode = .forced := by
  decide +kernel

/-- V-M8. -/
theorem test_configureAll :
    let t := after (exec defaultConfig (readyIn .sleep 0x00 0x00 (List.replicate 26 okAnswer)))
    t.trace.length = 27 ∧ t.sensorByte 0xF4 = some 0x24 ∧ t.sensorByte 0xF5 = some 0x40 ∧ t.mode = .sleep := by
  decide +kernel

/-! ## Getters (V-M10 to V-M14, P2) -/

/-- V-M10. -/
theorem test_getMode_10_forced :
    (after (exec .getMode (readyIn .sleep 0x26 0x40 [okAnswer]))).trace =
      [.rd 0xF4 1 (some [0x26]), .rsp .ok (.mode 0b01)] := by
  decide

theorem test_getMode_10_unknown :
    (after (exec .getMode { readyIn .sleep 0x26 0x40 [okAnswer] with
      params := { bench with mode10Decode := .unknown } })).trace =
      [.rd 0xF4 1 (some [0x26]), .rsp .unknownModeOrFilter .absent] := by
  decide

/-- V-M11 and P2. -/
theorem test_getOsrsP :
    (after (exec .getOsrsP (readyIn .normal 0x37 0x40 [okAnswer]))).trace =
      [.rd 0xF4 1 (some [0x37]), .rsp .ok (.code 0b101)] ∧
    (after (exec .getOsrsP (readyIn .sleep 0x18 0x40 [okAnswer]))).trace =
      [.rd 0xF4 1 (some [0x18]), .rsp .unknownModeOrFilter .absent] := by
  decide

/-- V-M12. -/
theorem test_getOsrsT :
    (after (exec .getOsrsT (readyIn .sleep 0xE0 0x40 [okAnswer]))).trace =
      [.rd 0xF4 1 (some [0xE0]), .rsp .unknownModeOrFilter .absent] := by
  decide

/-- V-M13. -/
theorem test_getStandby :
    (after (exec .getStandby (readyIn .sleep 0x24 0xE0 [okAnswer]))).trace =
      [.rd 0xF5 1 (some [0xE0]), .rsp .ok (.code 0b111)] := by
  decide

/-- V-M14 and P7. -/
theorem test_getFilter :
    (after (exec .getFilter (readyIn .sleep 0x24 0x14 [okAnswer]))).trace =
      [.rd 0xF5 1 (some [0x14]), .rsp .unknownModeOrFilter .absent] ∧
    (after (exec .getFilter (readyIn .sleep 0x24 0x50 [okAnswer]))).trace =
      [.rd 0xF5 1 (some [0x50]), .rsp .ok (.code 0b100)] := by
  decide

/-! ## Calibration words and compensation (W1, V-T1 to V-T8, V-P1 to V-P14) -/

theorem test_calibrationWords :
    (wordOfBytes 0x18 0xFC).toInt = -1000 ∧ (wordOfBytes 0x7D 0x8E).toNat = 36477 ∧
      (wordOfBytes 0x7D 0x8E).toInt = -29059 ∧ (wordOfBytes 0xF9 0xFF).toInt = -7 ∧
      (wordOfBytes 0x00 0x80).toInt = -32768 ∧ (wordOfBytes 0xFF 0x7F).toInt = 32767 := by
  decide

theorem test_compT_vectors :
    [0, 1, 440064, 524288, 1048575].map (fun a => (fineTemperature ref a).toInt) = [-721301, -721301, 0, 135479, 960246] ∧
      [-721301, 0, 135479, 960246].map (fun t => (centiDegrees (BitVec.ofInt 32 t)).toInt) = [-14088, 0, 2646, 18755] ∧
      (fineTemperature { ref with t1 := 65535, t2 := 32767, t3 := 32767 } 0).toInt = 31 ∧
      (fineTemperature { ref with t1 := 0, t2 := 32767 } 1048575).toInt = -79 := by
  decide

/-- Both branches of the division, and T_FINE at its extremes. -/
theorem test_compP_vectors :
    [315700, 315699, 315698, 315697, 0, 1048575, 524288].map (compensatedPressure ref 128422) =
      [117874, 117874, 117873, 117874, 173204, 231379, 81877] ∧
    compensatedPressure ref 0 415148 = 96823 ∧ compensatedPressure ref 0x80000000 415148 = 91307 ∧
      compensatedPressure ref 0x7FFFFFFF 415148 = 103344 ∧ compensatedPressure ref 960246 1048575 = 234817 := by
  decide

/-- P4. -/
theorem test_compT :
    let t := after (exec (.compT 519888) (ready []))
    t.trace = [.rsp .ok (.temperature 2508)] ∧ t.tFine = 128422 ∧ t.tFineValid = true := by
  decide

/-- P4. -/
theorem test_compP : (after (exec (.compP 415148) (warm []))).trace = [.rsp .ok (.pressure 100656)] := by decide

/-- V-E6. -/
theorem test_compP_without_temperature : (after (exec (.compP 415148) (ready []))).faultCause = .tfineUnset := by decide

/-! ## Poller and measurement (V-Q1 to V-Q8, V-G1 to V-G8) -/

theorem test_rawCount :
    rawCount 0x80 0x00 0x00 = 524288 ∧ rawCount 0xFF 0xFF 0xFF = 1048575 ∧ rawCount 0xFF 0xFF 0x0F = 1048560 ∧
      rawCount 0x00 0x00 0xF0 = 15 ∧ rawCount 0x7E 0xED 0x00 = 519888 ∧ rawCount 0x65 0x5A 0xC0 = 415148 := by
  decide

/-- V-Q1: six reads, five waits. -/
theorem test_getTemperature_timeout :
    let t := after (exec .getTemperature (ready ((List.replicate 5 [busyAnswer, okAnswer]).flatten ++ [busyAnswer])))
    t.trace.length = 12 ∧ t.trace.getLast? = some (.rsp .pollTimeoutError .absent) ∧ t.pollBudget = 0 ∧
      t.pstate = .timedOut := by
  decide +kernel

/-- V-G1. -/
theorem test_getTemperature :
    let t := after (exec .getTemperature (ready [okAnswer, burstT]))
    t.trace = [.rd 0xF3 1 (some [0x00]), .rd 0xFA 3 (some [0x7E, 0xED, 0x00]), .rsp .ok (.temperature 2508)] ∧
      t.tFine = 128422 ∧ t.tFineValid = true ∧ t.pollBudget = 10 := by
  decide +kernel

/-- V-G2. -/
theorem test_getPressure :
    (after (exec .getPressure (warm [okAnswer, burstP]))).trace =
      [.rd 0xF3 1 (some [0x00]), .rd 0xF7 3 (some [0x65, 0x5A, 0xC0]), .rsp .ok (.pressure 100656)] := by
  decide +kernel

/-- V-Q8: the wait fails; the budget stays part-used. -/
theorem test_getPressure_wait_fails :
    let t := after (exec .getPressure (warm [busyAnswer, failAnswer]))
    t.trace.getLast? = some (.rsp .interfaceError .absent) ∧ t.pollBudget = 8 ∧ t.pstate = .measuring := by
  decide +kernel

/-- V-G4: the Forced code is written again first. -/
theorem test_getAll_forced :
    let t := after (exec .getAll (readyIn .forced 0x24 0x40 [okAnswer, okAnswer, okAnswer, burstT, okAnswer, burstP, okAnswer]))
    t.trace.take 2 = [.rd 0xF4 1 (some [0x24]), .wr 0xF4 [0x25] true] ∧ t.trace.length = 8 ∧
      t.trace[6]? = some (.pow 100656 (190284 / 1000000) (some 0)) ∧ t.mode = .forced := by
  decide +kernel

/-- V-G6: the power call fails; T_FINE stays written. -/
theorem test_getAll_power_fails :
    let t := after (exec .getAll (readyIn .normal 0x27 0x40 [okAnswer, burstT, okAnswer, burstP, failAnswer]))
    t.trace.getLast? = some (.rsp .interfaceError .absent) ∧ t.tFine = 128422 ∧ t.tFineValid = true := by
  decide +kernel

/-! ## Checks and faults (V-E1 to V-E7) -/

theorem test_nullHandle :
    (after (exec .init { cold 0x58 [] with params := { bench with handlePresent := false } })).trace =
      [.rsp .nullHandle .absent] := by
  decide

theorem test_nullDependency :
    (after (exec .init { cold 0x58 [] with
      params := { bench with capPresent := ⟨true, true, true, false, true, true⟩ } })).trace =
      [.rsp .nullDependency .absent] := by
  decide

theorem test_notReady :
    let t := after (exec .getTemperature (cold 0x58 []))
    t.fault = true ∧ t.faultCause.number = 0b001 ∧ t.trace = [.rsp .faulted .absent] := by
  decide

theorem test_faulted_init :
    (after (exec .init { cold 0x58 [] with fault := true, faultCause := .notReady })).trace = [.rsp .faulted .absent] := by
  decide

/-- V-E7 and V-E1: the decode check comes before the handle and the lifecycle. -/
theorem test_illegal_word_first :
    let t := after (step { cold 0x58 [] with params := { bench with handlePresent := false }, host := [0x20000002] })
    t.trace = [.cmd 0x20000002, .rsp .illegalCommand .absent] ∧ t.fault = false := by
  decide

/-- The numbers of R132, R139, R19 and R27. -/
theorem test_numbers :
    [RspCode.ok, .nullHandle, .nullDependency, .interfaceError, .sensorIdError, .pollTimeoutError, .unknownModeOrFilter,
      .illegalCommand, .faulted].map RspCode.number = [0x00, 0x01, 0x02, 0x03, 0x04, 0x05, 0x06, 0x07, 0xFF] ∧
    [FaultCause.none, .notReady, .tfineUnset, .sleepOnlyActive].map FaultCause.number = [0b000, 0b001, 0b010, 0b011] ∧
    [Lifecycle.uninit, .ready].map Lifecycle.number = [0, 1] ∧
    [PState.ready, .measuring, .timedOut].map PState.number = [0b00, 0b01, 0b10] := by
  decide

/-! ## Assembly (R73, R74) -/

theorem test_assembleLine :
    ["SET_FIELD 0xF5, 4, 2, 3", "GET_FIELD 0xF4, 5, 3", "SET_OSRS_P #5", "SET_STANDBY 62.5ms", "SET_FILTER 16",
      "COMP_T 519888", "SET_MODE #2", "SET_FIELD 0xF3, 4, 2, 3", "COMP_T 1048576"].map
        (fun l => assembleLine l.toList) =
    [some 0x01F52304, some 0x02F45300, some 0x21000005, some 0x23000001, some 0x24000004, some 0x4007EED0, none, none,
      none] := by
  decide

/-! ## The host's stage (R130, R131) -/

theorem test_snapshot : snapshot 2508 100656 (55 : Rat) = ⟨2508 / 100, 100656, some 55⟩ := by decide +kernel

theorem test_hypsometric_zero : hypsometricPowerArgs 0 = none ∧ hypsometricAltitude 2508 1 = 0 := by decide +kernel

/-! ## Witnesses: states and operands that meet each statement's hypotheses together -/

/-- Answers for a fetch on the bench that waits `n` times: busy reads and waits. -/
def busyWaits (n : Nat) : List (Answer × Answer) := List.replicate n (busyAnswer, okAnswer)

theorem witness_DecodeOfEncode : (Instr.setField 0xF4 2 6 0xFF).wf = true ∧ (Instr.getField 0xFF 7 1).wf = true := by
  decide

theorem witness_EncodeOfDecode : decode 0x01F52604 = .ok (.setField 0xF5 2 6 4) ∧ decode 0x52000000 = .ok .getAll := by
  decide

theorem witness_StepRunsDecodedInstruction :
    ((ready []).issue 0x02FF7100).host = 0x02FF7100 :: [] ∧ decode 0x02FF7100 = .ok (.getField 0xFF 7 1) ∧
      (Instr.getField 0xFF 7 1).wf = true := by
  decide

theorem witness_StepWithoutCommand :
    ((ready []).issue 0x20000002).host = 0x20000002 :: [] ∧ decode 0x20000002 = .error .illegalCode ∧
      ((ready []).issue 0x20000002).fault = false ∧ (ready []).host = [] := by
  decide

theorem witness_FaultStateSticky :
    let s : State := { (ready []).issue 0x10000000 with fault := true, faultCause := .notReady }
    s.host = 0x10000000 :: [] ∧ s.fault = true ∧ ∃ t, step s = .next t := ⟨by decide, by decide, _, rfl⟩

theorem witness_CheckOrder :
    (∃ s : State, s.fault = true) ∧ (∃ s : State, s.fault = false ∧ s.params.handlePresent = false) ∧
      (∃ s : State, s.fault = false ∧ s.params.handlePresent = true ∧ s.capsPresent = false) ∧
      ∃ s : State, s.serving ∧ s.lifecycle = .uninit ∧ Instr.getAll ≠ .init :=
  ⟨⟨{ ready [] with fault := true, faultCause := .tfineUnset }, by decide⟩,
    ⟨{ ready [] with params := { bench with handlePresent := false } }, by decide⟩,
    ⟨{ ready [] with params := { bench with capPresent := ⟨true, true, true, true, true, false⟩ } }, by decide⟩,
    ⟨cold 0x58 [], by decide⟩⟩

theorem witness_OwnPreconditionFaults :
    ((readyIn .normal 0x27 0x40 []).operational ∧ (readyIn .normal 0x27 0x40 []).mode ≠ .sleep) ∧
      (ready []).operational ∧ (ready []).tFineValid = false := by
  decide

theorem witness_InvariantKept :
    ((ready []).issue 0x52000000).Inv ∧ (cold 0x58 []).Inv ∧ ∃ t, step ((ready []).issue 0x52000000) = .next t :=
  ⟨by decide, by decide, _, rfl⟩

theorem witness_ParametersConstant : ∃ t, step ((ready []).issue 0x10000000) = .next t := ⟨_, rfl⟩

theorem witness_OneResponsePerCommand : ∃ t, exec .getAll (warm []) = .next t := ⟨_, rfl⟩

theorem witness_ResponseCodesOfCommand :
    (ready []).fault = false ∧ ∃ t, exec .getPressure (ready []) = .next t ∧ t.fault = true := ⟨by decide, _, rfl, by decide⟩

theorem witness_ResponseValueShape : ∃ t, exec .checkId (ready [okAnswer]) = .next t := ⟨_, rfl⟩

theorem witness_RegisterWriters : ∃ t, exec .init (cold 0x58 []) = .next t := ⟨_, rfl⟩

theorem witness_SensorConstants : ∃ t, step ((ready []).issue 0x13000000) = .next t := ⟨_, rfl⟩

theorem witness_PollerStateUnseen : ∃ t, exec .getTemperature (ready []) = .next t := ⟨_, rfl⟩

theorem witness_UnwrittenRegistersUnseen :
    ((cold 0x58 []).lifecycle = .uninit ∧ ∃ t, exec .init (cold 0x58 []) = .next t) ∧
      (ready []).tFineValid = false ∧ ∃ t, exec .getAll (ready []) = .next t :=
  ⟨⟨by decide, _, rfl⟩, by decide, _, rfl⟩

theorem witness_CapabilityFailure :
    (ready [failAnswer]).answers = failAnswer :: [] ∧ failAnswer.ok = false ∧
      (ready [{ failAnswer with took := true }]).answers = { failAnswer with took := true } :: [] ∧
      ({ failAnswer with took := true } : Answer).ok = false := by
  decide

/-- The three clauses have different registers or values. -/
theorem witness_SensorWriteEffects :
    ((ready []).acceptBytes 0xF5 [0xFF]).sensorByte 0xF5 = some 0xFF ∧
      ((ready []).acceptBytes 0xE0 [0xB6]).sensorByte 0xF5 = some 0x00 ∧
      (ready []).acceptBytes 0xE0 [0xB7] = ready [] ∧ (ready []).acceptBytes 0xF6 [0x00] = ready [] := by
  decide +kernel

/-- The ends of the constant addresses, both environments, RESET, and the addresses on both sides of the stored ones. -/
theorem witness_SensorReadValues :
    ((ready [okAnswer]).answers = okAnswer :: [] ∧ okAnswer.ok = true ∧ (ready [okAnswer]).starting = false) ∧
      (ready []).sensorByte 0x88 = some 0x70 ∧ (ready []).sensorByte 0x9F = some 0x17 ∧
      (ready []).sensorByte 0xD0 = some 0x58 ∧ (ready []).sensorByte 0xF5 = some 0x40 ∧
      (ready []).sensorByte 0xF4 = some 0x24 ∧ (ready []).params.envModel = .mem ∧
      ({ ready [] with params := { bench with envModel := .free } } : State).params.envModel = .free ∧
      constantAddr 0x88 = true ∧ constantAddr 0x9F = true ∧ constantAddr 0xD0 = true ∧ constantAddr 0xF4 = false ∧
      constantAddr 0xE0 = false ∧ storedAddr 0x87 = false ∧ storedAddr 0xA0 = false ∧ storedAddr 0xF6 = false ∧
      storedAddr 0xE0 = false ∧ (ready []).params.resetRead = .draw ∧
      ({ ready [] with params := { bench with resetRead := .zero } } : State).params.resetRead = .zero := by
  decide

theorem witness_StartupWindow :
    let s : State := { ready [okAnswer] with starting := true }
    s.answers = okAnswer :: [] ∧ okAnswer.ok = true ∧ okAnswer.settled = false ∧ s.starting = true ∧
      s.params.startupDelayMs.toNat ≤ (2#32).toNat := by
  decide

/-- A read of CTRL_MEAS alone, a burst that ends on it, and reads on both sides of it; a Forced code and Normal's. -/
theorem witness_ForcedReturn :
    let a : Answer := { okAnswer with completed := true }
    a.completed = true ∧ (0xF4 ≤ 0xF4 ∧ 0xF4 < 0xF4 + 1) ∧ (0xF2 ≤ 0xF4 ∧ 0xF4 < 0xF2 + 3) ∧ ¬(0xF4 < 0xF3 + 1) ∧
      ¬(0xF5 ≤ 0xF4) ∧ (readyIn .forced 0x25 0x40 []).sensorByte 0xF4 = some 0x25 ∧
      (readyIn .normal 0x27 0x40 []).sensorByte 0xF4 = some 0x27 ∧ okAnswer.completed = false := by
  decide

/-- Both sides of the sign, and the ends of the range. -/
theorem witness_CalibrationWordDecode :
    (wordOfBytes 0xFF 0x7F).toInt = 0x7FFF ∧ (wordOfBytes 0x00 0x80).toInt = -0x8000 ∧
      (-32768 : Int) ≤ -32768 ∧ (32767 : Int) ≤ 32767 := by
  decide

theorem witness_CodecProperties :
    (1 ≤ 3 ∧ 2 + 3 ≤ 8 ∧ (1 < 2 ∨ 2 + 3 ≤ 1) ∧ (5 < 2 ∨ 2 + 3 ≤ 5)) ∧
      (ready [okAnswer, okAnswer, okAnswer]).answers = okAnswer :: okAnswer :: okAnswer :: [] ∧ okAnswer.ok = true ∧
      okAnswer.completed = false ∧ (ready [okAnswer, okAnswer, okAnswer]).starting = false ∧
      (ready [okAnswer, okAnswer, okAnswer]).params.envModel = .mem ∧
      ({ ready [okAnswer] with params := { bench with envModel := .free } } : State).params.envModel = .free := by
  decide

theorem witness_SetFieldResult :
    let s := ready [okAnswer, okAnswer]
    s.operational ∧ (Instr.setField 0xF4 2 6 0xFF).wf = true ∧ s.mode = .sleep ∧ s.answers = okAnswer :: okAnswer :: [] ∧
      okAnswer.ok = true ∧ s.params.envModel = .mem ∧ s.starting = false ∧ okAnswer.completed = false ∧
      s.sensorByte 0xF4 = some 0x24 := by
  decide

theorem witness_GetFieldResult :
    let s := ready [okAnswer]
    s.operational ∧ (Instr.getField 0xFF 0 8).wf = true ∧ s.answers = okAnswer :: [] ∧ okAnswer.ok = true ∧
      s.starting = false ∧ storedAddr 0xFF = false ∧ (0xFF : Byte) ≠ 0xE0#8 ∧ s.params.envModel = .mem ∧
      okAnswer.completed = false ∧ s.sensorByte 0xD0 = some 0x58 ∧
      (Instr.getField 0xE0 0 8).wf = true ∧ s.params.resetRead = .draw ∧
      ({ s with params := { bench with resetRead := .zero } } : State).operational ∧
      ({ s with params := { bench with envModel := .free } } : State).operational ∧ constantAddr 0xFF = false := by
  decide

theorem witness_FieldAccessFrame :
    (Instr.setField 0xF5 2 3 4).wf = true ∧ (∃ t, exec (.setField 0xF5 2 3 4) (ready []) = .next t) ∧
      ∃ t, exec (.getField 0xF4 0 8) (ready []) = .next t := ⟨by decide, ⟨_, rfl⟩, _, rfl⟩

theorem witness_SetModeProcedure :
    (ready [okAnswer, okAnswer]).answers = okAnswer :: okAnswer :: [] ∧
      (ready [failAnswer, okAnswer]).answers = failAnswer :: okAnswer :: [] ∧
      (ready [okAnswer, failAnswer]).answers = okAnswer :: failAnswer :: [] ∧ okAnswer.ok = true ∧
      failAnswer.ok = false := by
  decide

theorem witness_SetModeResult :
    let s := ready [okAnswer, okAnswer]
    s.operational ∧ s.answers = okAnswer :: okAnswer :: [] ∧ okAnswer.ok = true ∧ s.params.envModel = .mem ∧
      s.starting = false ∧ okAnswer.completed = false ∧ s.sensorByte 0xF4 = some 0x24 := by
  decide

/-- The first call fails, the last one does. -/
theorem witness_SleepOnlyAbort :
    ((ready [failAnswer]).answers = [] ++ failAnswer :: [] ∧ allOk []) ∧
      (ready (List.replicate 5 okAnswer ++ [failAnswer])).answers = List.replicate 5 okAnswer ++ failAnswer :: [] ∧
      (List.replicate 5 okAnswer).length < 6 ∧ allOk (List.replicate 5 okAnswer) ∧ failAnswer.ok = false := by
  decide

theorem witness_SleepOnlySettersResult :
    (SleepOnlySetter (.setOsrsP .x16) 0xF4 2 Osrs.x16.code ∧ SleepOnlySetter (.setOsrsT .skip) 0xF4 5 Osrs.skip.code ∧
      SleepOnlySetter (.setStandby .ms4000) 0xF5 5 Standby.ms4000.code ∧
      SleepOnlySetter (.setFilter .c16) 0xF5 2 Filter.c16.code) ∧
      let s := readyIn .normal 0x27 0x40 (List.replicate 6 okAnswer)
      s.operational ∧ s.answers = List.replicate 6 okAnswer ++ [] ∧ (List.replicate 6 okAnswer).length = 6 ∧
        allOk (List.replicate 6 okAnswer) ∧ s.params.envModel = .mem ∧ s.starting = false ∧
        (∀ a ∈ List.replicate 6 okAnswer, a.completed = false) ∧ s.sensorByte 0xF4 = some 0x27 ∧
        s.sensorByte 0xF5 = some 0x40 :=
  ⟨⟨.inl ⟨_, rfl, rfl, rfl, rfl⟩, .inr (.inl ⟨_, rfl, rfl, rfl, rfl⟩), .inr (.inr (.inl ⟨_, rfl, rfl, rfl, rfl⟩)),
    .inr (.inr (.inr ⟨_, rfl, rfl, rfl, rfl⟩))⟩, by decide⟩

theorem witness_ConfigureAllResult :
    let s := readyIn .forced 0x25 0x43 (List.replicate 26 okAnswer)
    s.operational ∧ s.answers = List.replicate 26 okAnswer ++ [] ∧ (List.replicate 26 okAnswer).length = 26 ∧
      allOk (List.replicate 26 okAnswer) ∧ s.params.envModel = .mem ∧ s.starting = false ∧
      s.sensorByte 0xF4 = some 0x25 ∧ s.sensorByte 0xF5 = some 0x43 := by
  decide

theorem witness_InitResult :
    let s := cold 0x58 (List.replicate 42 okAnswer)
    s.serving ∧ s.answers = List.replicate 42 okAnswer ++ [] ∧ (List.replicate 42 okAnswer).length = 42 ∧
      allOk (List.replicate 42 okAnswer) ∧ s.starting = false ∧ s.sensorByte 0xD0 = some 0x58 ∧
      s.params.envModel = .mem ∧
      ∀ k : Fin 24, s.sensorByte (0x88 + k.val) = some (refNvm.getD k.val 0) := by
  decide +kernel

theorem witness_InitWrongChip :
    let s := cold 0x60 [okAnswer, okAnswer]
    s.serving ∧ s.answers = okAnswer :: okAnswer :: [] ∧ okAnswer.ok = true ∧ s.starting = false ∧
      s.sensorByte 0xD0 = some 0x60 ∧ (0x60 : Byte) ≠ 0x58#8 := by
  decide

theorem witness_InitReadyExactlyWhenOk : (cold 0x58 []).serving ∧ ∃ t, exec .init (cold 0x58 []) = .next t :=
  ⟨by decide, _, rfl⟩

theorem witness_DeinitResult :
    let s := readyIn .normal 0x27 0x40 [okAnswer, okAnswer]
    s.operational ∧ s.answers = okAnswer :: okAnswer :: [] ∧ okAnswer.ok = true ∧ ∃ t, exec .deinit s = .next t :=
  ⟨by decide, rfl, rfl, _, rfl⟩

theorem witness_NoUseAfterDeinit :
    (ready [okAnswer, okAnswer]).operational ∧ (∃ t, exec .deinit (ready [okAnswer, okAnswer]) = .next t) ∧
      Instr.getMode ≠ .init := ⟨by decide, ⟨_, rfl⟩, by decide⟩

theorem witness_CheckIdResult :
    let s := ready [okAnswer]
    let w : State := { ready [okAnswer] with mem := sensor 0x60 0x24 0x40 }
    (s.operational ∧ s.answers = okAnswer :: [] ∧ okAnswer.ok = true ∧ s.starting = false ∧
      s.sensorByte 0xD0 = some 0x58) ∧
      w.operational ∧ w.answers = okAnswer :: [] ∧ w.starting = false ∧ w.sensorByte 0xD0 = some 0x60 := by
  decide

theorem witness_ResetResult :
    ((ready [okAnswer]).operational ∧ (ready [okAnswer]).answers = okAnswer :: [] ∧ okAnswer.ok = true) ∧
      (ready [failAnswer]).operational ∧ (ready [failAnswer]).answers = failAnswer :: [] ∧ failAnswer.ok = false := by
  decide

/-- The field 10 under both decodings, and a legal field. -/
theorem witness_GetModeResult :
    let s := readyIn .sleep 0x26 0x40 [okAnswer]
    (s.operational ∧ s.answers = okAnswer :: [] ∧ okAnswer.ok = true ∧ s.params.envModel = .mem ∧ s.starting = false ∧
      okAnswer.completed = false ∧ s.sensorByte 0xF4 = some 0x26 ∧ s.params.mode10Decode = .forced) ∧
      ({ s with params := { bench with mode10Decode := .unknown } } : State).operational ∧
      (0x26 : Byte).extractLsb' 0 2 = 0b10#2 ∧ (0x27 : Byte).extractLsb' 0 2 ≠ 0b10#2 := by
  decide

/-- The last legal code and the first illegal one of each field. -/
theorem witness_FieldGettersResult :
    let s := readyIn .sleep 0x18 0x14 [okAnswer]
    (s.operational ∧ s.answers = okAnswer :: [] ∧ okAnswer.ok = true ∧ s.params.envModel = .mem ∧ s.starting = false ∧
      okAnswer.completed = false ∧ s.sensorByte 0xF4 = some 0x18 ∧ s.sensorByte 0xF5 = some 0x14) ∧
      ((0x14 : Byte).extractLsb' 2 3).toNat ≤ 5 ∧ 5 < ((0x18 : Byte).extractLsb' 2 3).toNat ∧
      ((0xE0 : Byte).extractLsb' 5 3).toNat ≤ 7 ∧ ((0x10 : Byte).extractLsb' 2 3).toNat ≤ 4 ∧
      4 < ((0x14 : Byte).extractLsb' 2 3).toNat := by
  decide

theorem witness_GettersFrame : ∃ t, exec .getFilter (ready []) = .next t := ⟨_, rfl⟩

theorem witness_SettersFrame :
    (∃ t, exec (.setMode .forced) (ready []) = .next t) ∧ (∃ t, exec (.setStandby .ms0p5) (ready []) = .next t) ∧
      ∃ t, exec (.configureAll .x1 .x1 .ms125 .off .sleep) (ready []) = .next t := ⟨⟨_, rfl⟩, ⟨_, rfl⟩, _, rfl⟩

theorem witness_LifecycleFrame :
    (∃ t, exec .init (cold 0x58 []) = .next t) ∧ (∃ t, exec .deinit (ready []) = .next t) ∧
      (∃ t, exec .checkId (ready []) = .next t) ∧ ∃ t, exec .reset (ready []) = .next t :=
  ⟨⟨_, rfl⟩, ⟨_, rfl⟩, ⟨_, rfl⟩, _, rfl⟩

/-- All twelve reads succeed; the first fails; the last fails. -/
theorem witness_FetchCalProcedure :
    ((ready (List.replicate 12 okAnswer)).answers = List.replicate 12 okAnswer ++ [] ∧
      (List.replicate 12 okAnswer).length = 12 ∧ allOk (List.replicate 12 okAnswer)) ∧
      ((ready [failAnswer]).answers = [] ++ failAnswer :: [] ∧ allOk []) ∧
      (ready (List.replicate 11 okAnswer ++ [failAnswer])).answers = List.replicate 11 okAnswer ++ failAnswer :: [] ∧
      (List.replicate 11 okAnswer).length < 12 ∧ allOk (List.replicate 11 okAnswer) ∧ failAnswer.ok = false := by
  decide

/-- A valid and an invalid T_FINE, a denominator of 0 and one that is not. -/
theorem witness_PressureFormula :
    (ready []).tFineValid = false ∧ (warm []).tFineValid = true ∧ presDenominator { ref with p1 := 1 } 128422 = 0#32 ∧
      presDenominator ref 128422 ≠ 0#32 := by
  decide

/-- Both sides of 2^31, and the least divisor whose product does not wrap. -/
theorem witness_DivisionBranchesAgree :
    (36471#32 ≠ 0#32 ∧ (0x7FFFFFFF#32).toNat < 0x80000000) ∧ 0x80000000 ≤ (0x80000000#32).toNat ∧
      2#32 ≠ 0#32 ∧ 2 ≤ (2#32).toNat := by
  decide

theorem witness_DatapathCommandsResult :
    (ready []).operational ∧ (warm []).operational ∧ (warm []).tFineValid = true := by
  decide

/-- V-Q1, V-Q4 and V-Q5: the last iteration times out, a budget of 0, and the last iteration finds the bit clear. -/
theorem witness_PollExactCounts :
    (let s := ready (waitAnswers (busyWaits 5) ++ [busyAnswer])
    (busyWaits 5).length = s.pollBudget.toNat / s.params.pollPeriod.ms.toNat ∧ waitsBusy (busyWaits 5) ∧
      busyAnswer.ok = true ∧ busy busyAnswer ∧ s.answers = waitAnswers (busyWaits 5) ++ busyAnswer :: []) ∧
    (let s : State := { ready [busyAnswer] with pollBudget := 0 }
    (busyWaits 0).length = s.pollBudget.toNat / s.params.pollPeriod.ms.toNat ∧ waitsBusy (busyWaits 0) ∧
      s.answers = waitAnswers (busyWaits 0) ++ busyAnswer :: []) ∧
    (let s := ready (waitAnswers (busyWaits 5) ++ [okAnswer])
    (busyWaits 5).length ≤ s.pollBudget.toNat / s.params.pollPeriod.ms.toNat ∧ okAnswer.ok = true ∧ ¬busy okAnswer ∧
      s.answers = waitAnswers (busyWaits 5) ++ okAnswer :: []) := by
  decide

theorem witness_GetTemperatureResult :
    let s := ready (waitAnswers (busyWaits 5) ++ [okAnswer, burstT])
    s.operational ∧ (busyWaits 5).length ≤ waitsPerPoll s.params ∧ waitsBusy (busyWaits 5) ∧ okAnswer.ok = true ∧
      ¬busy okAnswer ∧ burstT.ok = true ∧ s.answers = waitAnswers (busyWaits 5) ++ okAnswer :: burstT :: [] := by
  decide

theorem witness_GetPressureResult :
    let s := warm (waitAnswers (busyWaits 5) ++ [okAnswer, burstP])
    s.operational ∧ s.tFineValid = true ∧ (busyWaits 5).length ≤ waitsPerPoll s.params ∧ waitsBusy (busyWaits 5) ∧
      okAnswer.ok = true ∧ ¬busy okAnswer ∧ burstP.ok = true ∧
      s.answers = waitAnswers (busyWaits 5) ++ okAnswer :: burstP :: [] := by
  decide

/-- In Forced mode with both fetches waiting as long as they may, and in Normal mode without a wait. -/
theorem witness_GetAllResult :
    (let s := readyIn .forced 0x24 0x40 ([okAnswer, okAnswer] ++ waitAnswers (busyWaits 5) ++ okAnswer :: burstT ::
        waitAnswers (busyWaits 5) ++ okAnswer :: burstP :: okAnswer :: [])
    s.operational ∧ [okAnswer, okAnswer].length = (if s.mode = .forced then 2 else 0) ∧ allOk [okAnswer, okAnswer] ∧
      (busyWaits 5).length ≤ waitsPerPoll s.params ∧ waitsBusy (busyWaits 5) ∧ okAnswer.ok = true ∧ ¬busy okAnswer ∧
      burstT.ok = true ∧ burstP.ok = true ∧
      s.answers = [okAnswer, okAnswer] ++ waitAnswers (busyWaits 5) ++ okAnswer :: burstT ::
        waitAnswers (busyWaits 5) ++ okAnswer :: burstP :: okAnswer :: []) ∧
    (let s := readyIn .normal 0x27 0x40 [okAnswer, burstT, okAnswer, burstP, okAnswer]
    s.operational ∧ ([] : List Answer).length = (if s.mode = .forced then 2 else 0) ∧
      s.answers = [] ++ waitAnswers [] ++ okAnswer :: burstT :: waitAnswers [] ++ okAnswer :: burstP :: okAnswer :: []) := by
  decide

/-- One fetch alone; GET_ALL's temperature fetch in Forced mode; its pressure fetch in Sleep after a ready one. -/
theorem witness_MeasurementTimeout :
    (let s := warm (waitAnswers (busyWaits 5) ++ [busyAnswer])
    s.tFineValid = true ∧ s.operational ∧ (busyWaits 5).length = waitsPerPoll s.params ∧ waitsBusy (busyWaits 5) ∧
      busyAnswer.ok = true ∧ busy busyAnswer ∧ s.answers = waitAnswers (busyWaits 5) ++ busyAnswer :: []) ∧
    (let s := readyIn .forced 0x24 0x40 ([okAnswer, okAnswer] ++ waitAnswers (busyWaits 5) ++ busyAnswer :: [])
    s.operational ∧ [okAnswer, okAnswer].length = (if s.mode = .forced then 2 else 0) ∧ allOk [okAnswer, okAnswer] ∧
      s.answers = [okAnswer, okAnswer] ++ waitAnswers (busyWaits 5) ++ busyAnswer :: []) ∧
    (let s := ready ([] ++ waitAnswers (busyWaits 1) ++ okAnswer :: burstT :: waitAnswers (busyWaits 5) ++ busyAnswer :: [])
    s.operational ∧ ([] : List Answer).length = (if s.mode = .forced then 2 else 0) ∧
      (busyWaits 1).length ≤ waitsPerPoll s.params ∧ waitsBusy (busyWaits 1) ∧ okAnswer.ok = true ∧ ¬busy okAnswer ∧
      burstT.ok = true ∧
      s.answers = [] ++ waitAnswers (busyWaits 1) ++ okAnswer :: burstT :: waitAnswers (busyWaits 5) ++ busyAnswer :: []) := by
  decide

theorem witness_MeasurementFrame :
    (∃ t, exec (.compT 0) (ready []) = .next t) ∧ (∃ t, exec (.compP 0) (ready []) = .next t) ∧
      (∃ t, exec .getTemperature (ready []) = .next t) ∧ (∃ t, exec .getPressure (ready []) = .next t) ∧
      ∃ t, exec .getAll (ready []) = .next t := ⟨⟨_, rfl⟩, ⟨_, rfl⟩, ⟨_, rfl⟩, ⟨_, rfl⟩, _, rfl⟩

end Sys2Proof.Tests
end

section
/-! The raw count of a burst (R44) as a number. -/

namespace Sys2Proof.Machine

/-- The 24-bit value loses its low nibble and nothing else: what is left fits 20 bits. -/
theorem rawCount_toNat (msb lsb xlsb : Byte) :
    (rawCount msb lsb xlsb).toNat = (msb.toNat * 65536 + lsb.toNat * 256 + xlsb.toNat) / 16 := by
  have hburst : (msb ++ lsb ++ xlsb : BitVec 24).toNat = msb.toNat * 65536 + lsb.toNat * 256 + xlsb.toNat := by
    simp only [append_toNat]
    omega
  have hfits : (msb ++ lsb ++ xlsb : BitVec 24).toNat / 2 ^ 4 < 2 ^ 20 := by
    have hlt := (msb ++ lsb ++ xlsb : BitVec 24).isLt
    omega
  rw [rawCount, BitVec.toNat_setWidth, BitVec.toNat_ushiftRight, Nat.shiftRight_eq_div_pow, Nat.mod_eq_of_lt hfits,
    hburst, show 2 ^ 4 = 16 from rfl]

/-- Settles O26: MSB and LSB weigh multiples of 16 in the 24-bit value, so the division by 16 goes to XLSB alone; the
range is that of a `U20`. -/
theorem rawCountValue : Obligations.RawCountValue := by
  intro msb lsb xlsb
  refine ⟨?_, rawCount_toNat msb lsb xlsb, (rawCount msb lsb xlsb).isLt⟩
  rw [rawCount_toNat]
  omega

end Sys2Proof.Machine
end

section
/-! The assembler's lines (R73) and the words of the pseudo-instructions (R74). -/

namespace Sys2Proof.Machine

/-- A line whose mnemonic and operands make a legal command is that command's one word. -/
theorem assembleLine_eq_encode {line : List Char} {ops : List Operand} {i : Instr}
    (hops : parseOperands ((line.dropWhile (· = ' ')).dropWhile (· ≠ ' ')) = some ops)
    (hasm : assemble ((line.dropWhile (· = ' ')).takeWhile (· ≠ ' ')) ops = some i) (hwf : i.wf = true) :
    assembleLine line = some (encode i) := by
  simp only [assembleLine, hops, hasm, hwf, if_true]

/-- Every row of the table is found by its own name, so no row hides another. -/
theorem assemble_bareMnemonic : ∀ e ∈ bareMnemonics, assemble e.1.toList [] = some e.2 := by decide

/-- A row's name, alone on a line, is the word of the row's command. -/
theorem assembleLine_bareMnemonic {e : String × Instr} (he : e ∈ bareMnemonics) :
    assembleLine e.1.toList = some (encode e.2) := by
  have hwhole : ∀ e ∈ bareMnemonics, (e.1.toList.dropWhile (· = ' ')).takeWhile (· ≠ ' ') = e.1.toList ∧
      parseOperands ((e.1.toList.dropWhile (· = ' ')).dropWhile (· ≠ ' ')) = some [] ∧ e.2.wf = true := by decide
  obtain ⟨hname, hops, hwf⟩ := hwhole e he
  exact assembleLine_eq_encode hops (hname.symm ▸ assemble_bareMnemonic e he) hwf

/-- TRIGGER_FORCED's expansion (R74). -/
theorem assembleLine_setMode_forced : assembleLine "SET_MODE forced".toList = some (encode triggerForced) :=
  assembleLine_eq_encode (ops := [.name "forced".toList]) (by decide) (by decide) (by decide)

/-- READ_MEASURING's expansion (R74). -/
theorem assembleLine_getField_measuring :
    assembleLine "GET_FIELD 0xF3, 3, 1".toList = some (encode readMeasuring) :=
  assembleLine_eq_encode (ops := [.num 0xF3, .num 3, .num 1]) (by decide) (by decide) (by decide)

/-- DEFAULT_CONFIG's expansion (R71, R74). -/
theorem assembleLine_configureAll_default :
    assembleLine "CONFIGURE_ALL x1, x1, 125ms, off, sleep".toList = some (encode defaultConfig) :=
  assembleLine_eq_encode
    (ops := [.name "x1".toList, .name "x1".toList, .name "125ms".toList, .name "off".toList, .name "sleep".toList])
    (by decide) (by decide) (by decide)

/-- The words R74 prints for the four expansions. -/
theorem encode_pseudoInstructions :
    encode triggerForced = 0x20000001#32 ∧ encode readMeasuring = 0x02F33100#32 ∧
      encode defaultConfig = 0x25001280#32 ∧ encode softResetInstr = 0x13000000#32 := by decide

/-- Settles O4: a pseudo-instruction and its expansion are two lines of one command, so both have its word. -/
theorem pseudoInstructionWords : Obligations.PseudoInstructionWords := by
  obtain ⟨hforced, hmeasuring, hdefault, hreset⟩ := encode_pseudoInstructions
  refine ⟨?_, ?_, ?_, ?_, ?_, ?_, ?_, ?_⟩
  · exact hforced ▸ assembleLine_bareMnemonic (e := ("TRIGGER_FORCED", triggerForced)) (by decide)
  · exact hforced ▸ assembleLine_setMode_forced
  · exact hmeasuring ▸ assembleLine_bareMnemonic (e := ("READ_MEASURING", readMeasuring)) (by decide)
  · exact hmeasuring ▸ assembleLine_getField_measuring
  · exact hdefault ▸ assembleLine_bareMnemonic (e := ("DEFAULT_CONFIG", defaultConfig)) (by decide)
  · exact hdefault ▸ assembleLine_configureAll_default
  · exact hreset ▸ assembleLine_bareMnemonic (e := ("SOFT_RESET", softResetInstr)) (by decide)
  · exact hreset ▸ assembleLine_bareMnemonic (e := ("RESET", softResetInstr)) (by decide)

end Sys2Proof.Machine
end

section
/-! A calibration word as a number (R80, R81). -/

namespace Sys2Proof.Machine

/-- R80: the byte from the lower address is the low byte. -/
theorem wordOfBytes_toNat (b0 b1 : Byte) : (wordOfBytes b0 b1).toNat = b1.toNat * 256 + b0.toNat :=
  append_toNat b1 b0

/-- R81: a word of 0x8000 and above stands for its value less 0x10000. -/
theorem wordOfBytes_toInt (b0 b1 : Byte) :
    (wordOfBytes b0 b1).toInt =
      if b1.toNat * 256 + b0.toNat < 0x8000 then ((b1.toNat * 256 + b0.toNat : Nat) : Int)
      else ((b1.toNat * 256 + b0.toNat : Nat) : Int) - 0x10000 := by
  rw [BitVec.toInt_eq_toNat_cond, wordOfBytes_toNat]
  split <;> split <;> omega

/-- The low and the high byte of a 16-bit number make the word of that number. -/
theorem wordOfBytes_split {n : Nat} (h : n < 65536) :
    wordOfBytes (BitVec.ofNat 8 (n &&& 0xFF)) (BitVec.ofNat 8 (n >>> 8)) = BitVec.ofNat 16 n := by
  have hlow : n &&& 0xFF = n % 256 := Nat.and_two_pow_sub_one_eq_mod n 8
  have hhigh : n >>> 8 = n / 256 := Nat.shiftRight_eq_div_pow n 8
  apply BitVec.eq_of_toNat_eq
  rw [wordOfBytes_toNat, hlow, hhigh]
  simp only [BitVec.toNat_ofNat]
  omega

/-- Settles O27: the two decodes are the word's unsigned and signed readings, and the bytes of a signed value reduced
modulo 2^16 are a word whose signed reading is the value again. -/
theorem calibrationWordDecode : Obligations.CalibrationWordDecode := by
  refine ⟨wordOfBytes_toNat, wordOfBytes_toInt, fun v hlo hhi => ?_⟩
  have hlt : (v % 65536).toNat < 65536 := by omega
  rw [wordOfBytes_split hlt, BitVec.toInt_ofNat', Int.bmod_def]
  split <;> omega

end Sys2Proof.Machine
end

section
/-! FetchCal (R83): the reads one word after the other, how far they come, and what the store holds after them. -/

namespace Sys2Proof.Machine

/-! ### A call that fails -/

/-- A read that fails changes no block register and leaves its event. -/
theorem memRead_fail {s : State} {a : Answer} {rest : List Answer} (reg : Byte) (n : Nat) (h : s.answers = a :: rest)
    (ha : a.ok = false) :
    ∃ t, memRead reg n s = .error (.raise .interfaceError) t ∧ sameBlock s t ∧ t.answers = rest ∧
      t.trace = s.trace ++ [.rd reg n none] := by
  refine ⟨({ s with answers := rest }.beforeRead a reg n).log (.rd reg n none), ?_, ?_, ?_, ?_⟩
  · rw [memRead_run, s.nextAnswer_cons a rest h, if_neg (by simp [ha])]
  · exact sameBlock_trans (sameBlock_trans (sameBlock_answers s rest) (sameBlock_beforeRead _ a reg n))
      (sameBlock_log _ _)
  · simp
  · simp

/-- A procedure aborted at a call it has: the calls before it, then that call failing (R136). -/
theorem abortedAt_of_lt {es : List Event} {j : Nat} (h : j < es.length) :
    abortedAt es j = es.take j ++ [es[j].asFailed] := by
  rw [abortedAt, List.drop_eq_getElem_cons h]
  rfl

/-! ### The first `n` reads -/

/-- The address of calibration word `i` (R82). -/
def calReg (i : Nat) : Byte := BitVec.ofNat 8 (0x88 + 2 * i)

/-- The reads of calibration words 0 to `n - 1`. -/
def readCalWords : Nat → Proc (List U16)
  | 0 => pure []
  | n + 1 => do
    let words ← readCalWords n
    let w ← readCalWord (calReg n)
    return words ++ [w]

/-- The first `n` words of the bytes `b`, counted from 0x88. -/
def calWords (b : Nat → Byte) (n : Nat) : List U16 := (List.range n).map fun i => wordOfBytes (b (2 * i)) (b (2 * i + 1))

/-- The events of the first `n` reads, for the bytes `b`. -/
def calReads (b : Nat → Byte) (n : Nat) : List Event :=
  (List.range n).map fun i => .rd (calReg i) 2 (some [b (2 * i), b (2 * i + 1)])

/-- The coefficients in the order of R82. -/
def calibOfWords (w : List U16) : Calib :=
  ⟨w.getD 0 0, w.getD 1 0, w.getD 2 0, w.getD 3 0, w.getD 4 0, w.getD 5 0, w.getD 6 0, w.getD 7 0, w.getD 8 0,
    w.getD 9 0, w.getD 10 0, w.getD 11 0⟩

/-- The bytes `b` with word `n` replaced by the two bytes read for it. -/
def withCalWord (b : Nat → Byte) (n : Nat) (b0 b1 : Byte) : Nat → Byte :=
  Function.update (Function.update b (2 * n) b0) (2 * n + 1) b1

theorem readCalib_eq : readCalib = calibOfWords <$> readCalWords 12 := by
  simp only [readCalWords, map_bind, bind_assoc, pure_bind, map_pure]
  rfl

theorem calibOfWords_calWords (b : Nat → Byte) : calibOfWords (calWords b 12) = calibOfNvm fun k => b k := rfl

theorem calibrationEvents_eq (b : Nat → Byte) : (calibrationEvents fun k => b k) = calReads b 12 := rfl

theorem abortedAt_calReads (b : Nat → Byte) {j n : Nat} (h : j < n) :
    abortedAt (calReads b n) j = calReads b j ++ [.rd (calReg j) 2 none] := by
  rw [abortedAt_of_lt (by simpa [calReads] using h)]
  simp [calReads, ← List.map_take, List.take_range, Nat.min_eq_left h.le, Event.asFailed]

@[simp] theorem withCalWord_low (b : Nat → Byte) (n : Nat) (b0 b1 : Byte) : withCalWord b n b0 b1 (2 * n) = b0 := by
  simp [withCalWord]

@[simp] theorem withCalWord_high (b : Nat → Byte) (n : Nat) (b0 b1 : Byte) :
    withCalWord b n b0 b1 (2 * n + 1) = b1 := by
  simp [withCalWord]

theorem withCalWord_below (b : Nat → Byte) (n : Nat) (b0 b1 : Byte) {k : Nat} (h : k < 2 * n) :
    withCalWord b n b0 b1 k = b k := by
  rw [withCalWord, Function.update_of_ne (by omega), Function.update_of_ne (by omega)]

/-- Two maps over the first `n` words that agree but for the byte function agree when word `n` is replaced. -/
theorem map_withCalWord {α : Type} (f : Nat → Byte → Byte → α) (b : Nat → Byte) (n : Nat) (b0 b1 : Byte) :
    ((List.range (n + 1)).map fun i => f i (withCalWord b n b0 b1 (2 * i)) (withCalWord b n b0 b1 (2 * i + 1))) =
      ((List.range n).map fun i => f i (b (2 * i)) (b (2 * i + 1))) ++ [f n b0 b1] := by
  have hbelow : ∀ i ∈ List.range n, f i (withCalWord b n b0 b1 (2 * i)) (withCalWord b n b0 b1 (2 * i + 1)) =
      f i (b (2 * i)) (b (2 * i + 1)) := fun i hi => by
    have hi : i < n := List.mem_range.mp hi
    rw [withCalWord_below b n b0 b1 (by omega), withCalWord_below b n b0 b1 (by omega)]
  rw [List.range_succ, List.map_append, List.map_congr_left hbelow, List.map_singleton, withCalWord_low,
    withCalWord_high]

theorem calWords_withCalWord (b : Nat → Byte) (n : Nat) (b0 b1 : Byte) :
    calWords (withCalWord b n b0 b1) (n + 1) = calWords b n ++ [wordOfBytes b0 b1] :=
  map_withCalWord (fun _ => wordOfBytes) b n b0 b1

theorem calReads_withCalWord (b : Nat → Byte) (n : Nat) (b0 b1 : Byte) :
    calReads (withCalWord b n b0 b1) (n + 1) = calReads b n ++ [.rd (calReg n) 2 (some [b0, b1])] :=
  map_withCalWord (fun i b0 b1 => Event.rd (calReg i) 2 (some [b0, b1])) b n b0 b1

theorem calReg_toNat {n : Nat} (h : n < 12) : (calReg n).toNat = 0x88 + 2 * n := by
  simp only [calReg, BitVec.toNat_ofNat]
  omega

theorem calReg_constant {n : Nat} (h : n < 12) :
    constantAddr (calReg n).toNat = true ∧ constantAddr ((calReg n).toNat + 1) = true := by
  rw [calReg_toNat h]
  simp only [constantAddr, Bool.or_eq_true, Bool.and_eq_true, decide_eq_true_eq]
  omega

/-- `t` is the state after `n` successful reads from `s`, whose bytes are `b`: past the startup time those of the
NVM. -/
structure CalWordsRead (s : State) (n : Nat) (b : Nat → Byte) (t : State) : Prop where
  run : readCalWords n s = .ok (calWords b n) t
  block : sameBlock s t
  trace : t.trace = s.trace ++ calReads b n
  sensor : sameSensorBut [] s t
  settled : s.starting = false → t.starting = false
  held : s.starting = false → ∀ k < 2 * n, ∀ x, s.sensorByte (0x88 + k) = some x → b k = x

/-- One more read. -/
theorem CalWordsRead.next {s t : State} {n : Nat} {b : Nat → Byte} {a : Answer} {rest : List Answer}
    (h : CalWordsRead s n b t) (hans : t.answers = a :: rest) (ha : a.ok = true) (hn : n < 12) :
    ∃ b0 b1 u, CalWordsRead s (n + 1) (withCalWord b n b0 b1) u ∧ u.answers = rest := by
  obtain ⟨b0, b1, u, hrun, hblock, hrest, htrace, hsensor, hstart, hheld⟩ :=
    readCalWord_ok (calReg n) hans ha (calReg_constant hn)
  rw [calReg_toNat hn] at hheld
  refine ⟨b0, b1, u, ⟨?_, sameBlock_trans h.block hblock, ?_, sameSensorBut_trans h.sensor hsensor, ?_, ?_⟩, hrest⟩
  · rw [readCalWords, bind_run_ok h.run, bind_run_ok hrun, pure_run, calWords_withCalWord]
  · rw [htrace, h.trace, calReads_withCalWord, List.append_assoc]
  · exact fun hs => by rw [hstart, h.settled hs]; rfl
  · intro hs k hk x hx
    have hx' : t.sensorByte (0x88 + k) = some x := (h.sensor _ (by simp)).trans hx
    obtain hk | rfl | rfl : k < 2 * n ∨ k = 2 * n ∨ k = 2 * n + 1 := by omega
    · rw [withCalWord_below b n b0 b1 hk]
      exact h.held hs k hk x hx
    · rw [withCalWord_low]
      exact (hheld (h.settled hs)).1 x hx'
    · rw [withCalWord_high]
      exact (hheld (h.settled hs)).2 x hx'

/-- As many reads as there are successful answers. -/
theorem readCalWords_ok (s : State) (as rest : List Answer) (h : s.answers = as ++ rest) (hlen : as.length ≤ 12)
    (hok : allOk as) : ∃ b t, CalWordsRead s as.length b t ∧ t.answers = rest := by
  induction as using List.reverseRecOn generalizing rest with
  | nil =>
    exact ⟨fun _ => 0, s, ⟨rfl, sameBlock_refl s, (List.append_nil _).symm, sameSensorBut_refl _ s, id,
      fun _ k hk => absurd hk (Nat.not_lt_zero k)⟩, h⟩
  | append_singleton as a ih =>
    rw [List.length_append, List.length_singleton] at hlen ⊢
    obtain ⟨b, t, hread, hans⟩ := ih (a :: rest) (by simpa using h) (by omega)
      fun x hx => hok x (List.mem_append_left _ hx)
    obtain ⟨b0, b1, u, hnext, hrest⟩ := hread.next hans (hok a (by simp)) hlen
    exact ⟨_, u, hnext, hrest⟩

/-- A stop at one of the reads is where the later ones stop. -/
theorem readCalWords_error {s t : State} {e : Stop} {m n : Nat} (hmn : m ≤ n) (h : readCalWords m s = .error e t) :
    readCalWords n s = .error e t := by
  induction n, hmn using Nat.le_induction with
  | base => exact h
  | succ n _ ih => rw [readCalWords, bind_run_error ih]

/-- The read after the successful ones fails. -/
theorem CalWordsRead.fail {s t : State} {n : Nat} {b : Nat → Byte} {a : Answer} {rest : List Answer}
    (h : CalWordsRead s n b t) (hans : t.answers = a :: rest) (ha : a.ok = false) :
    ∃ u, readCalWords (n + 1) s = .error (.raise .interfaceError) u ∧ sameBlock s u ∧ u.answers = rest ∧
      u.trace = s.trace ++ (calReads b n ++ [.rd (calReg n) 2 none]) := by
  obtain ⟨u, hrun, hblock, hrest, htrace⟩ := memRead_fail (calReg n) 2 hans ha
  refine ⟨u, ?_, sameBlock_trans h.block hblock, hrest, ?_⟩
  · rw [readCalWords, bind_run_ok h.run, readCalWord, bind_run_error (bind_run_error hrun)]
  · rw [htrace, h.trace, List.append_assoc]

/-! ### FetchCal -/

/-- With twelve words read FetchCal stores them and sets `CAL_VALID`. -/
theorem fetchCal_of_words {s t : State} {w : List U16} (h : readCalWords 12 { s with calValid := false } = .ok w t) :
    fetchCal s = .ok () { t with cal := calibOfWords w, calValid := true } := by
  rw [fetchCal, bind_run_ok (modify_run _ s), bind_run_ok (a := calibOfWords w) (t := t), modify_run]
  rw [readCalib_eq, map_run, h]

/-- Where the reads stop FetchCal stops, with `CAL_VALID` cleared and no register written. -/
theorem fetchCal_of_stop {s t : State} {e : Stop} (h : readCalWords 12 { s with calValid := false } = .error e t) :
    fetchCal s = .error e t := by
  rw [fetchCal, bind_run_ok (modify_run _ s), bind_run_error (e := e) (t := t)]
  rw [readCalib_eq, map_run, h]

/-- FetchCal with all twelve reads succeeding (R83). -/
theorem fetchCal_ok {s : State} {as rest : List Answer} (h : s.answers = as ++ rest) (hlen : as.length = 12)
    (hok : allOk as) :
    ∃ (b : Fin 24 → Byte) (t : State), fetchCal s = .ok () t ∧
      sameBlock { s with cal := calibOfNvm b, calValid := true } t ∧ t.answers = rest ∧
      t.trace = s.trace ++ calibrationEvents b ∧ sameSensorBut [] s t ∧ (s.starting = false → t.starting = false) ∧
      (s.starting = false → ∀ k x, s.sensorByte (0x88 + k.val) = some x → b k = x) := by
  obtain ⟨b, t, hread, hrest⟩ := readCalWords_ok { s with calValid := false } as rest h hlen.le hok
  rw [hlen] at hread
  refine ⟨fun k => b k, { t with cal := calibOfWords (calWords b 12), calValid := true }, fetchCal_of_words hread.run,
    ?_, hrest, ?_, hread.sensor, hread.settled, fun hs k => hread.held hs k k.isLt⟩
  · rw [← calibOfWords_calWords]
    have hblock := hread.block
    rw [sameBlock_iff] at *
    simp_all
  · rw [calibrationEvents_eq]
    exact hread.trace

/-- FetchCal stopped by a failing read (R83, R136). -/
theorem fetchCal_fail {s : State} {as : List Answer} {a : Answer} {rest : List Answer} (h : s.answers = as ++ a :: rest)
    (hlen : as.length < 12) (hok : allOk as) (ha : a.ok = false) :
    ∃ (b : Fin 24 → Byte) (t : State), fetchCal s = .error (.raise .interfaceError) t ∧
      sameBlock { s with calValid := false } t ∧ t.answers = rest ∧
      t.trace = s.trace ++ abortedAt (calibrationEvents b) as.length := by
  obtain ⟨b, t, hread, hans⟩ := readCalWords_ok { s with calValid := false } as (a :: rest) h hlen.le hok
  obtain ⟨u, hstop, hblock, hrest, htrace⟩ := hread.fail hans ha
  refine ⟨fun k => b k, u, fetchCal_of_stop (readCalWords_error hlen hstop), hblock, hrest, ?_⟩
  rw [calibrationEvents_eq, abortedAt_calReads b hlen]
  exact htrace

/-- Settles O49: induction over the successful answers gives the state before the next read; with twelve of them the
store is written, and a failing one stops the reads there. -/
theorem fetchCalProcedure : Obligations.FetchCalProcedure := by
  refine ⟨fun s as rest h hlen hok => ?_, fun s as a rest h hlen hok ha => fetchCal_fail h hlen hok ha⟩
  obtain ⟨b, t, hrun, hblock, hrest, htrace, -, -, hheld⟩ := fetchCal_ok h hlen hok
  exact ⟨b, t, hrun, hblock, hrest, htrace, hheld⟩

end Sys2Proof.Machine
end

section
/-! The temperature formula (R86), stage by stage, in exact integers. -/

namespace Sys2Proof.Machine

/-- CompT reads no bus: it always ends, with `T_FINE` and `T_FINE_VALID` written. -/
theorem compT_run (adc : U20) (s : State) :
    compT adc s = .ok (centiDegrees (fineTemperature s.cal adc))
      { s with tFine := fineTemperature s.cal adc, tFineValid := true } := by
  rw [compT, bind_run_ok (get_run s), bind_run_ok (modify_run _ s), pure_run]

/-- A raw count is below 2^31, so its arithmetic shift is a floor division of the count itself. -/
theorem toInt_count_sshiftRight (adc : U20) (n : Nat) :
    ((adc.setWidth 32).sshiftRight n).toInt = (adc.toNat : Int) / 2 ^ n := by
  rw [toInt_sshiftRight_div, toInt_unsigned adc (by omega)]

theorem tempX1_toInt (c : Calib) (adc : U20) :
    (tempX1 c adc).toInt = wrap ((adc.toNat : Int) / 8 - wrap (c.t1.toNat * 2)) := by
  rw [tempX1, toInt_sub_wrap, toInt_count_sshiftRight, toInt_double, toInt_unsigned c.t1 (by omega)]
  rfl

theorem tempVar1_toInt (c : Calib) (adc : U20) :
    (tempVar1 c adc).toInt = wrap ((tempX1 c adc).toInt * c.t2.toInt) / 2048 := by
  rw [tempVar1, toInt_sshiftRight_div, toInt_mul_wrap, toInt_coefficient]
  rfl

theorem tempX2_toInt (c : Calib) (adc : U20) :
    (tempX2 c adc).toInt = wrap ((adc.toNat : Int) / 16 - c.t1.toNat) := by
  rw [tempX2, toInt_sub_wrap, toInt_count_sshiftRight, toInt_unsigned c.t1 (by omega)]
  rfl

theorem tempVar2_toInt (c : Calib) (adc : U20) :
    (tempVar2 c adc).toInt =
      wrap (wrap ((tempX2 c adc).toInt * (tempX2 c adc).toInt) / 4096 * c.t3.toInt) / 16384 := by
  rw [tempVar2, toInt_sshiftRight_div, toInt_mul_wrap, toInt_sshiftRight_div, toInt_mul_wrap, toInt_coefficient]
  rfl

theorem fineTemperature_toInt (c : Calib) (adc : U20) :
    (fineTemperature c adc).toInt = wrap ((tempVar1 c adc).toInt + (tempVar2 c adc).toInt) := toInt_add_wrap _ _

theorem centiDegrees_toInt (tf : S32) : (centiDegrees tf).toInt = wrap (wrap (tf.toInt * 5) + 128) / 256 := by
  rw [centiDegrees, toInt_sshiftRight_div, toInt_add_wrap, toInt_mul_wrap]
  rfl

/-- Settles O50: CompT's run names the two words, and each stage's integer goes into the next stage's equation. -/
theorem temperatureFormula : Obligations.TemperatureFormula := by
  intro s adc
  refine ⟨_, _, compT_run adc s, ?_, centiDegrees_toInt _⟩
  rw [fineTemperature_toInt, tempVar1_toInt, tempVar2_toInt, tempX1_toInt, tempX2_toInt]

end Sys2Proof.Machine
end

section
/-! Poll (R96, R97): what one read of STATUS and one delay do, the four ways an iteration can go, the iterations that read
the bit set, and the bound on the calls. -/

namespace Sys2Proof.Machine

/-! ### The two calls of an iteration -/

/-- A delay that succeeds changes no block register and leaves its event. -/
theorem delay_ok {s : State} {a : Answer} {rest : List Answer} (ms : U32) (h : s.answers = a :: rest)
    (ha : a.ok = true) :
    ∃ t, delay ms s = .ok () t ∧ sameBlock s t ∧ t.answers = rest ∧ t.trace = s.trace ++ [.dly ms true] := by
  refine ⟨({ s with answers := rest }.log (.dly ms true)).waited ms, ?_, ?_, ?_, ?_⟩
  · rw [delay_run, s.nextAnswer_cons a rest h, if_pos ha]
  · exact sameBlock_trans (sameBlock_trans (sameBlock_answers s rest) (sameBlock_log _ _)) (sameBlock_waited _ ms)
  · simp
  · simp

/-- A read of STATUS that succeeds gives the measuring bit of the byte drawn: the sensor keeps no content there (R49). -/
theorem readMeasuring_ok {s : State} {a : Answer} {rest : List Answer} (h : s.answers = a :: rest)
    (ha : a.ok = true) :
    ∃ t, codecGet 0xF3#8 3 1 s = .ok (extractField a.b0 3 1) t ∧ sameBlock s t ∧ t.answers = rest ∧
      t.trace = s.trace ++ [.rd 0xF3#8 1 (some [a.b0])] := by
  obtain ⟨b, t, hrun, hblock, hrest, htrace, -, -, -, hseen⟩ := codecGet_ok 0xF3#8 3 1 h ha
  have hdrawn : b = a.b0 :=
    hseen.trans (State.seenByte_none t _ a.b0 (State.sensorByte_unlisted t _ (by decide)) (.inl (by decide)))
  exact ⟨t, hdrawn ▸ hrun, hblock, hrest, hdrawn ▸ htrace⟩

/-- The measuring bit reads 0 exactly when STATUS is not busy. -/
theorem measuring_eq_zero (b : Byte) : extractField b 3 1 = 0#8 ↔ ¬b.getLsbD 3 = true := by
  revert b
  decide

/-! ### One iteration -/

/-- R97's `k`: the whole periods in the budget. -/
abbrev State.wholePeriods (s : State) : Nat := s.pollBudget.toNat / s.params.pollPeriod.ms.toNat

/-- One period less in the budget (R96). -/
abbrev State.spendPeriod (s : State) : State := { s with pollBudget := s.pollBudget - s.params.pollPeriod.ms }

theorem pollPeriod_pos (p : PollPeriod) : 0 < p.ms.toNat :=
  Nat.pos_of_ne_zero fun h => p.pos (BitVec.eq_of_toNat_eq h)

/-- A budget is too small for one more wait exactly when no whole period is left in it. -/
theorem State.ult_period_iff (s : State) : s.pollBudget.ult s.params.pollPeriod.ms = true ↔ s.wholePeriods = 0 := by
  rw [BitVec.ult_iff_lt, BitVec.lt_def, Nat.div_eq_zero_iff]
  have hpos := pollPeriod_pos s.params.pollPeriod
  omega

theorem State.spendPeriod_toNat {s : State} (h : s.wholePeriods ≠ 0) :
    s.spendPeriod.pollBudget.toNat + s.params.pollPeriod.ms.toNat = s.pollBudget.toNat := by
  have hle : s.params.pollPeriod.ms.toNat ≤ s.pollBudget.toNat := by
    rw [← not_lt]
    exact fun hlt => h (Nat.div_eq_of_lt hlt)
  rw [BitVec.toNat_sub_of_le hle, Nat.sub_add_cancel hle]

theorem State.wholePeriods_spendPeriod {s : State} (h : s.wholePeriods ≠ 0) :
    s.spendPeriod.wholePeriods + 1 = s.wholePeriods := by
  rw [State.wholePeriods, State.wholePeriods, ← State.spendPeriod_toNat h,
    Nat.add_div_right _ (pollPeriod_pos s.params.pollPeriod)]

theorem sameBlock_pollBudget {s t : State} (h : sameBlock s t) : t.pollBudget = s.pollBudget :=
  ((sameBlock_iff s t).mp h).2.2.2.2.2.2.2.1

theorem sameBlock_wholePeriods {s t : State} (h : sameBlock s t) : t.wholePeriods = s.wholePeriods := by
  rw [State.wholePeriods, sameBlock_pollBudget h, sameBlock_params h]

theorem sameBlock_withBudget {s t : State} (h : sameBlock s t) (b : U32) :
    sameBlock { s with pollBudget := b } { t with pollBudget := b } := by
  rw [sameBlock_iff] at *
  simp_all

theorem sameBlock_rearm {s t : State} (h : sameBlock s t) :
    sameBlock { s with pollBudget := s.params.pollCeilingMs } { t with pollBudget := t.params.pollCeilingMs } := by
  have hceiling : t.params.pollCeilingMs = s.params.pollCeilingMs := by rw [sameBlock_params h]
  rw [hceiling]
  exact sameBlock_withBudget h _

theorem sameBlock_withPState {s t : State} (h : sameBlock s t) (p : PState) :
    sameBlock { s with pstate := p } { t with pstate := p } := by
  rw [sameBlock_iff] at *
  simp_all

theorem sameBlock_spendPeriod {s t : State} (h : sameBlock s t) : sameBlock s.spendPeriod t.spendPeriod := by
  have hspent : t.pollBudget - t.params.pollPeriod.ms = s.pollBudget - s.params.pollPeriod.ms := by
    rw [sameBlock_pollBudget h, sameBlock_params h]
  rw [State.spendPeriod, State.spendPeriod, hspent]
  exact sameBlock_withBudget h _

section
variable {s t : State} {m : Byte} (n : Nat)

/-- The read fails. -/
theorem pollLoop_readFails {e : Stop} (h : codecGet 0xF3#8 3 1 s = .error e t) :
    pollLoop (n + 1) s = .error e t := bind_run_error h

/-- The bit is clear: Poll ends Ready with the budget re-armed. -/
theorem pollLoop_clear (h : codecGet 0xF3#8 3 1 s = .ok m t) (hm : m = 0#8) :
    pollLoop (n + 1) s = .ok () { t with pollBudget := t.params.pollCeilingMs, pstate := .ready } := by
  rw [pollLoop, bind_run_ok h, bind_run_ok (get_run t), if_pos hm, set_run]

/-- The bit is set and no whole period is left: Poll times out. -/
theorem pollLoop_exhausted (h : codecGet 0xF3#8 3 1 s = .ok m t) (hm : m ≠ 0#8) (hk : t.wholePeriods = 0) :
    pollLoop (n + 1) s = .error (.raise .pollTimeoutError) { t with pstate := .timedOut } := by
  rw [pollLoop, bind_run_ok h, bind_run_ok (get_run t), if_neg hm, if_pos (t.ult_period_iff.mpr hk),
    bind_run_ok (set_run _ t), raise_run]

/-- The bit is set and a period is left: it is spent on a delay, and Poll goes on. -/
theorem pollLoop_again (h : codecGet 0xF3#8 3 1 s = .ok m t) (hm : m ≠ 0#8) (hk : t.wholePeriods ≠ 0) :
    pollLoop (n + 1) s = (delay t.params.pollPeriod.ms >>= fun _ => pollLoop n) t.spendPeriod := by
  rw [pollLoop, bind_run_ok h, bind_run_ok (get_run t), if_neg hm, if_neg (mt t.ult_period_iff.mp hk),
    bind_run_ok (set_run _ t)]

end

/-! ### The iterations that read the bit set -/

/-- An iteration that reads the bit set and waits, with both calls succeeding. -/
theorem pollLoop_again_ok {s : State} {r d : Answer} {rest : List Answer} (n : Nat) (h : s.answers = r :: d :: rest)
    (hr : r.ok = true) (hd : d.ok = true) (hbusy : busy r) (hk : s.wholePeriods ≠ 0) :
    ∃ t, pollLoop (n + 1) s = pollLoop n t ∧ sameBlock s.spendPeriod t ∧ t.answers = rest ∧
      t.trace = s.trace ++ waitEvents s.params.pollPeriod.ms [(r, d)] := by
  obtain ⟨t, hread, hblock, hans, htrace⟩ := readMeasuring_ok h hr
  have hperiods : t.wholePeriods = s.wholePeriods := sameBlock_wholePeriods hblock
  obtain ⟨u, hdelay, hblock', hrest, htrace'⟩ :=
    delay_ok (s := t.spendPeriod) t.params.pollPeriod.ms hans hd
  refine ⟨u, ?_, ?_, hrest, ?_⟩
  · rw [pollLoop_again n hread (fun hm => (measuring_eq_zero _).mp hm hbusy) (hperiods ▸ hk), bind_run_ok hdelay]
  · exact sameBlock_trans (sameBlock_spendPeriod hblock) hblock'
  · rw [htrace', htrace, sameBlock_params hblock]
    simp [waitEvents]

/-- `t` is the state after the iterations `waits` from `s`: a period of the budget is gone for each. -/
structure Waited (s : State) (waits : List (Answer × Answer)) (t : State) : Prop where
  block : sameBlock { s with pollBudget := t.pollBudget } t
  budget : t.pollBudget.toNat + waits.length * s.params.pollPeriod.ms.toNat = s.pollBudget.toNat
  trace : t.trace = s.trace ++ waitEvents s.params.pollPeriod.ms waits

/-- One more iteration, before the others. -/
theorem Waited.cons {s t u : State} {r d : Answer} {waits : List (Answer × Answer)} (h : Waited t waits u)
    (hk : s.wholePeriods ≠ 0) (hblock : sameBlock s.spendPeriod t)
    (htrace : t.trace = s.trace ++ waitEvents s.params.pollPeriod.ms [(r, d)]) : Waited s ((r, d) :: waits) u := by
  have hparams : t.params = s.params := (sameBlock_params hblock :)
  have hbudget := h.budget
  refine ⟨sameBlock_trans (sameBlock_withBudget hblock u.pollBudget) h.block, ?_, ?_⟩
  · rw [hparams, sameBlock_pollBudget hblock] at hbudget
    rw [List.length_cons, Nat.add_mul, Nat.one_mul, ← Nat.add_assoc, hbudget, State.spendPeriod_toNat hk]
  · rw [h.trace, htrace, hparams, List.append_assoc]
    rfl

/-- As many iterations as there are pairs of successful answers that read the bit set, while the budget lasts. -/
theorem pollLoop_waited (waits : List (Answer × Answer)) (as : List Answer) (n : Nat) (s : State)
    (hlen : waits.length ≤ s.wholePeriods) (hbusy : waitsBusy waits) (h : s.answers = waitAnswers waits ++ as) :
    ∃ t, pollLoop (n + waits.length) s = pollLoop n t ∧ Waited s waits t ∧ t.answers = as := by
  induction waits generalizing s with
  | nil => exact ⟨s, rfl, ⟨sameBlock_refl s, by simp, by simp [waitEvents]⟩, h⟩
  | cons w waits ih =>
    obtain ⟨hr, hd, hb⟩ := hbusy w List.mem_cons_self
    have hk : s.wholePeriods ≠ 0 := by
      rw [List.length_cons] at hlen
      omega
    obtain ⟨t, hrun, hblock, hans, htrace⟩ := pollLoop_again_ok (n + waits.length) h hr hd hb hk
    have hlen' : waits.length ≤ t.wholePeriods := by
      have hspent := State.wholePeriods_spendPeriod hk
      rw [List.length_cons] at hlen
      rw [sameBlock_wholePeriods hblock]
      omega
    obtain ⟨u, hrun', hwaited, hrest⟩ := ih t hlen' (fun p hp => hbusy p (List.mem_cons_of_mem _ hp)) hans
    exact ⟨u, hrun.trans hrun', hwaited.cons hk hblock htrace, hrest⟩

/-! ### The two ends of Poll -/

theorem poll_run (s : State) : poll s = pollLoop (s.wholePeriods + 1) { s with pstate := .measuring } := by
  rw [poll, bind_run_ok (modify_run _ s), bind_run_ok (get_run _), pollIterations]

/-- Poll up to the read after the iterations `waits`: that read is the first of the iterations left, and succeeds. -/
theorem poll_lastRead {s : State} {waits : List (Answer × Answer)} {last : Answer} {rest : List Answer}
    (hlen : waits.length ≤ s.wholePeriods) (hbusy : waitsBusy waits) (hlast : last.ok = true)
    (h : s.answers = waitAnswers waits ++ last :: rest) :
    ∃ n t u, poll s = pollLoop (n + 1) t ∧ codecGet 0xF3#8 3 1 t = .ok (extractField last.b0 3 1) u ∧
      sameBlock { s with pollBudget := u.pollBudget, pstate := .measuring } u ∧
      u.pollBudget.toNat + waits.length * s.params.pollPeriod.ms.toNat = s.pollBudget.toNat ∧ u.answers = rest ∧
      u.trace = s.trace ++ waitEvents s.params.pollPeriod.ms waits ++ [.rd 0xF3#8 1 (some [last.b0])] := by
  obtain ⟨t, hrun, hwaited, hans⟩ := pollLoop_waited waits (last :: rest) (s.wholePeriods - waits.length + 1)
    { s with pstate := .measuring } hlen hbusy h
  obtain ⟨u, hread, hblock, hrest, htrace⟩ := readMeasuring_ok hans hlast
  have hbudget : u.pollBudget = t.pollBudget := sameBlock_pollBudget hblock
  refine ⟨s.wholePeriods - waits.length, t, u, ?_, hread, ?_, hbudget ▸ hwaited.budget, hrest, ?_⟩
  · rw [poll_run, ← hrun, Nat.add_right_comm, Nat.sub_add_cancel hlen]
  · exact hbudget ▸ sameBlock_trans hwaited.block hblock
  · rw [htrace, hwaited.trace]

/-- Poll with the bit set at every read: it times out with the remainder as budget. -/
theorem poll_timedOut {s : State} {waits : List (Answer × Answer)} {last : Answer} {rest : List Answer}
    (hlen : waits.length = s.wholePeriods) (hbusy : waitsBusy waits) (hlast : last.ok = true) (hset : busy last)
    (h : s.answers = waitAnswers waits ++ last :: rest) :
    ∃ t, poll s = .error (.raise .pollTimeoutError) t ∧
      sameBlock { s with pollBudget := s.pollBudget % s.params.pollPeriod.ms, pstate := .timedOut } t ∧
      t.answers = rest ∧
      t.trace = s.trace ++ waitEvents s.params.pollPeriod.ms waits ++ [.rd 0xF3#8 1 (some [last.b0])] := by
  obtain ⟨n, t, u, hrun, hread, hblock, hbudget, hrest, htrace⟩ := poll_lastRead hlen.le hbusy hlast h
  have hmod : u.pollBudget = s.pollBudget % s.params.pollPeriod.ms := by
    have hsplit := Nat.mod_add_div s.pollBudget.toNat s.params.pollPeriod.ms.toNat
    rw [hlen, State.wholePeriods, Nat.mul_comm] at hbudget
    exact BitVec.eq_of_toNat_eq (by rw [BitVec.toNat_umod]; omega)
  have hleft : u.wholePeriods = 0 := by
    rw [State.wholePeriods, hmod, sameBlock_params hblock, BitVec.toNat_umod]
    exact Nat.div_eq_of_lt (Nat.mod_lt _ (pollPeriod_pos s.params.pollPeriod))
  refine ⟨{ u with pstate := .timedOut }, ?_, hmod ▸ sameBlock_withPState hblock .timedOut, hrest, htrace⟩
  rw [hrun, pollLoop_exhausted n hread (fun hm => (measuring_eq_zero _).mp hm hset) hleft]

/-- Poll with the bit first clear at the read after the iterations `waits`: it ends Ready with the budget re-armed. -/
theorem poll_ready {s : State} {waits : List (Answer × Answer)} {last : Answer} {rest : List Answer}
    (hlen : waits.length ≤ s.wholePeriods) (hbusy : waitsBusy waits) (hlast : last.ok = true) (hclear : ¬busy last)
    (h : s.answers = waitAnswers waits ++ last :: rest) :
    ∃ t, poll s = .ok () t ∧ sameBlock { s with pollBudget := s.params.pollCeilingMs, pstate := .ready } t ∧
      t.answers = rest ∧
      t.trace = s.trace ++ waitEvents s.params.pollPeriod.ms waits ++ [.rd 0xF3#8 1 (some [last.b0])] := by
  obtain ⟨n, t, u, hrun, hread, hblock, -, hrest, htrace⟩ := poll_lastRead hlen hbusy hlast h
  refine ⟨{ u with pollBudget := u.params.pollCeilingMs, pstate := .ready }, ?_,
    sameBlock_withPState (sameBlock_rearm hblock) .ready, hrest, htrace⟩
  rw [hrun, pollLoop_clear n hread ((measuring_eq_zero _).mpr hclear)]

/-! ### The bound on the calls -/

/-- The trace of `t` is that of `s` and at most `n` events more. -/
def AddsAtMost (n : Nat) (s t : State) : Prop :=
  ∃ calls : List Event, t.trace = s.trace ++ calls ∧ calls.length ≤ n

theorem addsAtMost_of_trace_eq (n : Nat) {s t : State} (h : t.trace = s.trace) : AddsAtMost n s t :=
  ⟨[], by simpa using h, Nat.zero_le n⟩

theorem addsAtMost_log {s t : State} (h : t.trace = s.trace) (e : Event) : AddsAtMost 1 s (t.log e) :=
  ⟨[e], congrArg (· ++ [e]) h, le_rfl⟩

theorem AddsAtMost.trans {m n : Nat} {s t u : State} (h1 : AddsAtMost m s t) (h2 : AddsAtMost n t u) :
    AddsAtMost (m + n) s u := by
  obtain ⟨l, hl, hm⟩ := h1
  obtain ⟨l', hl', hn⟩ := h2
  exact ⟨l ++ l', by rw [hl', hl, List.append_assoc], by rw [List.length_append]; exact Nat.add_le_add hm hn⟩

theorem AddsAtMost.mono {m n : Nat} {s t : State} (h : AddsAtMost m s t) (hmn : m ≤ n) : AddsAtMost n s t := by
  obtain ⟨l, hl, hm⟩ := h
  exact ⟨l, hl, hm.trans hmn⟩

/-- A procedure and then another add what both add. -/
theorem addsAtMost_bind {α β : Type} {m n : Nat} {p : Proc α} {f : α → Proc β} {s : State}
    (hp : AddsAtMost m s (endState (p s))) (hf : ∀ a t, p s = .ok a t → AddsAtMost n t (endState (f a t))) :
    AddsAtMost (m + n) s (endState ((p >>= f) s)) := by
  cases hrun : p s with
  | ok a t =>
    rw [hrun] at hp
    rw [bind_run_ok hrun]
    exact hp.trans (hf a t hrun)
  | error e t =>
    rw [hrun] at hp
    rw [bind_run_error hrun]
    exact hp.mono (Nat.le_add_right m n)

/-- However a register read ends, it adds one event. -/
theorem codecGet_addsAtMost (reg : Byte) (start width : Nat) (s : State) :
    AddsAtMost 1 s (endState (codecGet reg start width s)) := by
  rw [codecGet, bind_run, memRead_run]
  by_cases hok : s.nextAnswer.1.ok = true
  · rw [if_pos hok]
    exact addsAtMost_log (by simp) _
  · rw [if_neg hok]
    exact addsAtMost_log (by simp) _

/-- However a delay ends, it adds one event. -/
theorem delay_addsAtMost (ms : U32) (s : State) : AddsAtMost 1 s (endState (delay ms s)) := by
  rw [delay_run]
  by_cases hok : s.nextAnswer.1.ok = true
  · rw [if_pos hok]
    exact (addsAtMost_log s.nextAnswer_trace _).trans (addsAtMost_of_trace_eq 0 (State.waited_trace _ ms))
  · rw [if_neg hok]
    exact addsAtMost_log s.nextAnswer_trace _

/-- The loop adds at most two events for each whole period in the budget, and one for its last read. -/
theorem pollLoop_addsAtMost (n : Nat) (s : State) :
    AddsAtMost (2 * s.wholePeriods + 1) s (endState (pollLoop n s)) := by
  induction n generalizing s with
  | zero => exact addsAtMost_of_trace_eq _ rfl
  | succ n ih =>
    have hread := codecGet_addsAtMost 0xF3#8 3 1 s
    have hblock := keeps_codecGet sameBlock_callClosed 0xF3#8 3 1 s
    have hread_only : 1 ≤ 2 * s.wholePeriods + 1 := Nat.le_add_left 1 _
    cases hg : codecGet 0xF3#8 3 1 s with
    | error e t =>
      rw [hg] at hread
      rw [pollLoop_readFails n hg]
      exact hread.mono hread_only
    | ok m t =>
      rw [hg] at hread hblock
      have hperiods : t.wholePeriods = s.wholePeriods := sameBlock_wholePeriods hblock
      by_cases hm : m = 0#8
      · rw [pollLoop_clear n hg hm]
        exact hread.mono hread_only
      by_cases hk : t.wholePeriods = 0
      · rw [pollLoop_exhausted n hg hm hk]
        exact hread.mono hread_only
      rw [pollLoop_again n hg hm hk]
      have htail := addsAtMost_bind (delay_addsAtMost t.params.pollPeriod.ms t.spendPeriod) fun _ u hdelay => by
        have hblock' := keeps_delay sameBlock_callClosed t.params.pollPeriod.ms t.spendPeriod
        rw [hdelay] at hblock'
        exact (sameBlock_wholePeriods hblock') ▸ ih u
      have hspent := State.wholePeriods_spendPeriod hk
      exact (hread.trans htail).mono (by omega)

theorem poll_addsAtMost (s : State) : AddsAtMost (2 * s.wholePeriods + 1) s (endState (poll s)) := by
  rw [poll_run]
  exact pollLoop_addsAtMost _ { s with pstate := .measuring }

/-- Settles O55: induction over the waiting iterations reaches the last read, whose bit decides between the two ends; the
bound is an induction over the iterations, each delay being paid for by a period of the budget. -/
theorem pollExactCounts : Obligations.PollExactCounts := by
  refine ⟨fun s waits last rest => poll_timedOut, fun s waits last rest => poll_ready, fun s => ?_⟩
  obtain ⟨calls, htrace, hlen⟩ := poll_addsAtMost s
  refine ⟨calls, ?_, hlen⟩
  rw [← htrace]
  cases poll s <;> rfl

end Sys2Proof.Machine
end

section
/-! SetModeProc (R104): what stops the codec stops it, with `MODE` not yet written. -/

namespace Sys2Proof.Machine

/-! ### A codec write that fails -/

/-- A write that fails changes no block register and leaves its event, whether the sensor took the bytes or not. -/
theorem memWrite_fail {s : State} {a : Answer} {rest : List Answer} (reg : Byte) (bytes : List Byte)
    (h : s.answers = a :: rest) (ha : a.ok = false) :
    ∃ t, memWrite reg bytes s = .error (.raise .interfaceError) t ∧ sameBlock s t ∧ t.answers = rest ∧
      t.trace = s.trace ++ [.wr reg bytes false] := by
  have hans := sameBlock_answers s rest
  rw [memWrite_run, s.nextAnswer_cons a rest h, if_neg (by simp [ha])]
  cases htook : a.took with
  | true =>
    exact ⟨_, if_pos rfl, sameBlock_trans (sameBlock_trans hans (sameBlock_acceptBytes _ reg.toNat bytes))
      (sameBlock_log _ _), by simp, by simp⟩
  | false => exact ⟨_, if_neg (by simp), sameBlock_trans hans (sameBlock_log _ _), rfl, rfl⟩

/-- CodecSet stopped by its read (R75): no write is made. -/
theorem codecSet_readFails {s : State} {a : Answer} {rest : List Answer} (reg value : Byte) (start width : Nat)
    (h : s.answers = a :: rest) (ha : a.ok = false) :
    ∃ t, codecSet reg value start width s = .error (.raise .interfaceError) t ∧ sameBlock s t ∧ t.answers = rest ∧
      t.trace = s.trace ++ [.rd reg 1 none] := by
  obtain ⟨t, hread, hkept⟩ := memRead_fail reg 1 h ha
  exact ⟨t, bind_run_error hread, hkept⟩

/-- CodecSet stopped by its write (R75). -/
theorem codecSet_writeFails {s : State} {a1 a2 : Answer} {rest : List Answer} (reg value : Byte) (start width : Nat)
    (h : s.answers = a1 :: a2 :: rest) (h1 : a1.ok = true) (h2 : a2.ok = false) :
    ∃ b t, codecSet reg value start width s = .error (.raise .interfaceError) t ∧ sameBlock s t ∧ t.answers = rest ∧
      t.trace = s.trace ++ [.rd reg 1 (some [b]), .wr reg [insertField b value start width] false] := by
  obtain ⟨b, t, hread, hblock, hans, htrace, -⟩ := memRead_one reg h h1
  obtain ⟨u, hwrite, hblock', hrest, htrace'⟩ := memWrite_fail reg [insertField b value start width] hans h2
  refine ⟨b, u, ?_, sameBlock_trans hblock hblock', hrest, ?_⟩
  · rw [codecSet, bind_run_ok hread]
    exact hwrite
  · rw [htrace', htrace, List.append_assoc]
    rfl

/-! ### SetModeProc -/

/-- Where CodecSet stops SetModeProc stops, in the same state: the step that writes `MODE` is not reached. -/
theorem setModeProc_of_stop {s t : State} {m : Mode} {e : Stop}
    (h : codecSet 0xF4#8 (m.code.setWidth 8) 0 2 s = .error e t) : setModeProc m s = .error e t :=
  bind_run_error h

/-- SetModeProc stopped by its read (R104). -/
theorem setModeProc_readFails {s : State} {a : Answer} {rest : List Answer} (m : Mode) (h : s.answers = a :: rest)
    (ha : a.ok = false) :
    ∃ t, setModeProc m s = .error (.raise .interfaceError) t ∧ sameBlock s t ∧ t.answers = rest ∧
      t.trace = s.trace ++ [.rd 0xF4#8 1 none] := by
  obtain ⟨t, hstop, hkept⟩ := codecSet_readFails 0xF4#8 (m.code.setWidth 8) 0 2 h ha
  exact ⟨t, setModeProc_of_stop hstop, hkept⟩

/-- SetModeProc stopped by its write (R104). -/
theorem setModeProc_writeFails {s : State} {a1 a2 : Answer} {rest : List Answer} (m : Mode)
    (h : s.answers = a1 :: a2 :: rest) (h1 : a1.ok = true) (h2 : a2.ok = false) :
    ∃ b t, setModeProc m s = .error (.raise .interfaceError) t ∧ sameBlock s t ∧ t.answers = rest ∧
      t.trace = s.trace ++
        [.rd 0xF4#8 1 (some [b]), .wr 0xF4#8 [(b &&& 0xFC#8) ||| m.code.setWidth 8] false] := by
  obtain ⟨b, t, hstop, hblock, hrest, htrace⟩ := codecSet_writeFails 0xF4#8 (m.code.setWidth 8) 0 2 h h1 h2
  rw [insertField_mode] at htrace
  exact ⟨b, t, setModeProc_of_stop hstop, hblock, hrest, htrace⟩

/-- Settles O32: with both calls succeeding `MODE` is written after the codec; a failing read or write stops the codec,
and so SetModeProc, before that. -/
theorem setModeProcedure : Obligations.SetModeProcedure := by
  refine fun s m a1 a2 rest h => ⟨fun h1 h2 => ?_, fun h1 => ?_, fun h1 h2 => ?_⟩
  · obtain ⟨b, t, hrun, hblock, -, htrace, hfield, -⟩ := setModeProc_ok m h h1 h2
    exact ⟨b, t, hrun, hblock, htrace, hfield⟩
  · obtain ⟨t, hrun, hblock, -, htrace⟩ := setModeProc_readFails m h h1
    exact ⟨t, hrun, hblock, htrace⟩
  · obtain ⟨b, t, hrun, hblock, -, htrace⟩ := setModeProc_writeFails m h h1 h2
    exact ⟨b, t, hrun, hblock, htrace⟩

end Sys2Proof.Machine
end

section
/-! The fault state (R138): check 1 of R135 comes before everything else, for a word that decodes and for one that does
not. -/

namespace Sys2Proof.Machine

/-- Every command stands behind the checks of R135. -/
theorem exec_behind_checks (i : Instr) : ∃ needsReady body, ∀ s, exec i s = runCommand needsReady body s := by
  cases i <;> exact ⟨_, _, fun _ => rfl⟩

/-- Check 1 of R135 decides alone, whatever the command's own steps are. -/
theorem checked_faulted {s : State} (hf : s.fault = true) (needsReady : Bool) (body : Proc RspVal) :
    checked needsReady body s = s.respond .faulted .absent := if_pos hf

theorem exec_faulted {s : State} (hf : s.fault = true) (i : Instr) : exec i s = .next (s.respond .faulted .absent) := by
  obtain ⟨needsReady, body, hexec⟩ := exec_behind_checks i
  rw [hexec, runCommand_next, checked_faulted hf]

/-- Check 1 comes before check 2: an illegal word answers FAULTED too. -/
theorem rejectWord_faulted {s : State} (hf : s.fault = true) : s.rejectWord = s.respond .faulted .absent := if_pos hf

theorem step_of_noWord {s : State} (h : s.host = []) : step s = .next s := by
  rw [step, State.takeWord_nil s h]

theorem step_of_decode_ok {s : State} {w : Word} {rest : List Word} {i : Instr} (h : s.host = w :: rest)
    (hd : decode w = .ok i) : step s = exec i ({ s with host := rest }.log (.cmd w)) := by
  simp only [step, State.takeWord_cons s w rest h, hd]

theorem step_of_decode_error {s : State} {w : Word} {rest : List Word} {e : DecodeError} (h : s.host = w :: rest)
    (hd : decode w = .error e) : step s = .next ({ s with host := rest }.log (.cmd w)).rejectWord := by
  simp only [step, State.takeWord_cons s w rest h, hd]

/-- In the fault state a step takes the next word and answers FAULTED to it, whether the word decodes or not. -/
theorem step_faulted {s : State} {w : Word} {rest : List Word} (h : s.host = w :: rest) (hf : s.fault = true) :
    step s = .next (({ s with host := rest }.log (.cmd w)).respond .faulted .absent) := by
  have htaken : ({ s with host := rest }.log (.cmd w)).fault = true := hf
  cases hd : decode w with
  | ok i => rw [step_of_decode_ok h hd, exec_faulted htaken]
  | error e => rw [step_of_decode_error h hd, rejectWord_faulted htaken]

/-- A step leaves the fault state set, with the cause it had. -/
theorem step_keeps_fault {s t : State} (hstep : step s = .next t) (hf : s.fault = true) :
    t.fault = true ∧ t.faultCause = s.faultCause := by
  cases hhost : s.host with
  | nil =>
    rw [step_of_noWord hhost] at hstep
    cases hstep
    exact ⟨hf, rfl⟩
  | cons w rest =>
    rw [step_faulted hhost hf] at hstep
    cases hstep
    exact ⟨hf, rfl⟩

/-- Settles O8: in the fault state check 1 answers every word before anything else is looked at, so a step there only
takes its word and logs the two events. -/
theorem faultStateSticky : Obligations.FaultStateSticky := by
  refine ⟨fun s f => conclude_fault f s, fun s w rest hhost hf => ?_, fun s t => step_keeps_fault, rfl, rfl⟩
  rw [step_faulted hhost hf]
  simp [State.respond, State.log]

end Sys2Proof.Machine
end

section
/-! The encoder and the decoder as inverses (30_encoding sections 1 and 2), format by format; the enumerant codes of
section 4. -/

namespace Sys2Proof

/-! ### The word of a command decodes to it -/

/-- The opcode is the word's top byte. -/
theorem opcodeOf_toNat (w : Word) : (opcodeOf w).toNat = w.toNat / 2 ^ 24 := by
  have hlt := w.isLt
  rw [opcodeOf, extract_toNat]
  omega

theorem decode_encode_setField {reg : Byte} {start : BitVec 3} {width : BitVec 4} {value : Byte}
    (h : (Instr.setField reg start width value).wf = true) :
    decode (encode (.setField reg start width value)) = .ok (.setField reg start width value) := by
  obtain ⟨⟨⟨hwidth, hspan⟩, htarget⟩, hstart⟩ :
      ((widthLegal width = true ∧ spanLegal start width = true) ∧ targetLegal reg = true) ∧
        startLegal start = true := by
    simpa only [Instr.wf, Bool.and_eq_true] using h
  have hw := encode_setField_toNat reg start width value
  generalize encode (.setField reg start width value) = w at hw
  have hop : (opcodeOf w).toNat = 0x01 := by rw [opcodeOf_toNat, hw]; omega
  have hzero : w.extractLsb' 15 1 = 0#1 := extract_eq w 15 _ (by rw [hw, BitVec.toNat_ofNat]; omega)
  have hreg : w.extractLsb' 16 8 = reg := extract_eq w 16 _ (by rw [hw]; omega)
  have hst : w.extractLsb' 12 3 = start := extract_eq w 12 _ (by rw [hw]; omega)
  have hwd : w.extractLsb' 8 4 = width := extract_eq w 8 _ (by rw [hw]; omega)
  have hval : w.extractLsb' 0 8 = value := extract_eq w 0 _ (by rw [hw]; omega)
  rw [decode, hop]
  simp [decodeSetField, hzero, hreg, hst, hwd, hval, hwidth, hspan, htarget, hstart]

theorem decode_encode_getField {reg : Byte} {start : BitVec 3} {width : BitVec 4}
    (h : (Instr.getField reg start width).wf = true) :
    decode (encode (.getField reg start width)) = .ok (.getField reg start width) := by
  obtain ⟨hwidth, hspan⟩ : widthLegal width = true ∧ spanLegal start width = true := by
    simpa only [Instr.wf, Bool.and_eq_true] using h
  have hw := encode_getField_toNat reg start width
  generalize encode (.getField reg start width) = w at hw
  have hop : (opcodeOf w).toNat = 0x02 := by rw [opcodeOf_toNat, hw]; omega
  have hzero : w.extractLsb' 15 1 = 0#1 := extract_eq w 15 _ (by rw [hw, BitVec.toNat_ofNat]; omega)
  have hreg : w.extractLsb' 16 8 = reg := extract_eq w 16 _ (by rw [hw]; omega)
  have hst : w.extractLsb' 12 3 = start := extract_eq w 12 _ (by rw [hw]; omega)
  have hwd : w.extractLsb' 8 4 = width := extract_eq w 8 _ (by rw [hw]; omega)
  have hval : w.extractLsb' 0 8 = 0#8 := extract_eq w 0 _ (by rw [hw, BitVec.toNat_ofNat]; omega)
  rw [decode, hop]
  simp [decodeGetField, hzero, hreg, hst, hwd, hval, hwidth, hspan]

theorem decode_encode_configureAll (op ot : Osrs) (sb : Standby) (fl : Filter) (md : Mode) :
    decode (encode (.configureAll op ot sb fl md)) = .ok (.configureAll op ot sb fl md) := by
  have hw := encode_configureAll_toNat op ot sb fl md
  generalize encode (.configureAll op ot sb fl md) = w at hw
  have hopcode : (opcodeOf w).toNat = 0x25 := by rw [opcodeOf_toNat, hw]; omega
  have hhigh : w.extractLsb' 15 9 = 0#9 := extract_eq w 15 _ (by rw [hw, BitVec.toNat_ofNat]; omega)
  have hlow : w.extractLsb' 2 1 = 0#1 := extract_eq w 2 _ (by rw [hw, BitVec.toNat_ofNat]; omega)
  have hop : w.extractLsb' 12 3 = op.code := extract_eq w 12 _ (by rw [hw]; omega)
  have hot : w.extractLsb' 9 3 = ot.code := extract_eq w 9 _ (by rw [hw]; omega)
  have hsb : w.extractLsb' 6 3 = sb.code := extract_eq w 6 _ (by rw [hw]; omega)
  have hfl : w.extractLsb' 3 3 = fl.code := extract_eq w 3 _ (by rw [hw]; omega)
  have hmd : w.extractLsb' 0 2 = md.code := extract_eq w 0 _ (by rw [hw]; omega)
  rw [decode, hopcode]
  simp [decodeK, hhigh, hlow, hop, hot, hsb, hfl, hmd, Mode.ofCode_code, Osrs.ofCode_code, Standby.ofCode_code,
    Filter.ofCode_code]

/-- Format A (R62): what the low 24 bits hold decides. -/
theorem decodeA_of_low {w : Word} {adc : U20} (mk : U20 → Instr) (h : w.toNat % 2 ^ 24 = adc.toNat) :
    decodeA mk w = .ok (mk adc) := by
  have hzero : w.extractLsb' 20 4 = 0#4 := extract_eq w 20 _ (by rw [BitVec.toNat_ofNat]; omega)
  have hadc : w.extractLsb' 0 20 = adc := extract_eq w 0 _ (by omega)
  simp [decodeA, hzero, hadc]

theorem decode_encode_compT (adc : U20) : decode (encode (.compT adc)) = .ok (.compT adc) := by
  have hop : (opcodeOf (encode (.compT adc))).toNat = 0x40 := by rw [opcodeOf_toNat, encode_compT_toNat]; omega
  rw [decode, hop]
  exact decodeA_of_low .compT (by rw [encode_compT_toNat]; omega)

theorem decode_encode_compP (adc : U20) : decode (encode (.compP adc)) = .ok (.compP adc) := by
  have hop : (opcodeOf (encode (.compP adc))).toNat = 0x41 := by rw [opcodeOf_toNat, encode_compP_toNat]; omega
  rw [decode, hop]
  exact decodeA_of_low .compP (by rw [encode_compP_toNat]; omega)

/-- Settles O1: the commands with wide operands by the arithmetic of their fields, the others by evaluating the decoder on
their few words. -/
theorem decodeOfEncode : Obligations.DecodeOfEncode := by
  intro i hwf
  cases i with
  | setField reg start width value => exact decode_encode_setField hwf
  | getField reg start width => exact decode_encode_getField hwf
  | setMode m => cases m <;> rfl
  | setOsrsP c => cases c <;> rfl
  | setOsrsT c => cases c <;> rfl
  | setStandby c => cases c <;> rfl
  | setFilter c => cases c <;> rfl
  | configureAll op ot sb fl md => exact decode_encode_configureAll op ot sb fl md
  | compT adc => exact decode_encode_compT adc
  | compP adc => exact decode_encode_compP adc
  | init | deinit | checkId | reset | getMode | getOsrsP | getOsrsT | getStandby | getFilter | getTemperature
  | getPressure | getAll => rfl

/-! ### A word that decodes is the word of its command -/

/-- What O2 claims of one word and the command it decodes to. -/
abbrev IsWordOf (w : Word) (i : Instr) : Prop := i.wf = true ∧ encode i = w

section
variable {w : Word} {i : Instr} {op : Byte} (hop : opcodeOf w = op)
include hop

theorem word_toNat_of_opcode : w.toNat = op.toNat * 2 ^ 24 + w.toNat % 2 ^ 24 := by
  rw [← hop, opcodeOf_toNat]
  omega

/-- Format N (R58). -/
theorem isWordOf_of_decodeN {j : Instr} (h : decodeN j w = .ok i) (hwf : j.wf = true) (henc : encode j = encodeN op) :
    IsWordOf w i := by
  unfold decodeN at h
  split at h
  case isFalse => cases h
  case isTrue hzero =>
    cases h
    refine ⟨hwf, henc.trans (BitVec.eq_of_toNat_eq ?_)⟩
    have hbits := congrArg BitVec.toNat hzero
    rw [extract_toNat, BitVec.toNat_ofNat] at hbits
    rw [encodeN, append_toNat, BitVec.toNat_ofNat, word_toNat_of_opcode hop]
    omega

/-- Format E with a 3-bit code (R60). -/
theorem isWordOf_of_decodeE {α : Type} {ofCode : BitVec 3 → Option α} {code : α → BitVec 3} {mk : α → Instr}
    (h : decodeE ofCode mk w = .ok i) (hcode : ∀ c a, ofCode c = some a → code a = c) (hwf : ∀ a, (mk a).wf = true)
    (henc : ∀ a, encode (mk a) = encodeE op (code a)) : IsWordOf w i := by
  unfold decodeE at h
  split at h
  case isTrue => cases h
  case isFalse hzero =>
    split at h
    case h_2 => cases h
    case h_1 a ha =>
      cases h
      refine ⟨hwf a, (henc a).trans (BitVec.eq_of_toNat_eq ?_)⟩
      have hbits := congrArg BitVec.toNat (not_not.mp hzero)
      rw [extract_toNat, BitVec.toNat_ofNat] at hbits
      rw [hcode _ a ha, encodeE, append_toNat, append_toNat, extract_toNat, BitVec.toNat_ofNat,
        word_toNat_of_opcode hop]
      omega

/-- Format A (R62). -/
theorem isWordOf_of_decodeA {mk : U20 → Instr} (h : decodeA mk w = .ok i) (hwf : ∀ a, (mk a).wf = true)
    (henc : ∀ a, encode (mk a) = encodeA op a) : IsWordOf w i := by
  unfold decodeA at h
  split at h
  case isTrue => cases h
  case isFalse hzero =>
    cases h
    refine ⟨hwf _, (henc _).trans (BitVec.eq_of_toNat_eq ?_)⟩
    have hbits := congrArg BitVec.toNat (not_not.mp hzero)
    rw [extract_toNat, BitVec.toNat_ofNat] at hbits
    rw [encodeA, append_toNat, append_toNat, extract_toNat, BitVec.toNat_ofNat, word_toNat_of_opcode hop]
    omega

end

/-- Format E with the 2-bit mode code (R60). -/
theorem isWordOf_of_decodeSetMode {w : Word} {i : Instr} (hop : opcodeOf w = 0x20#8) (h : decodeSetMode w = .ok i) :
    IsWordOf w i := by
  unfold decodeSetMode at h
  split at h
  case isTrue => cases h
  case isFalse hzero =>
    split at h
    case h_2 => cases h
    case h_1 m hm =>
      cases h
      refine ⟨rfl, BitVec.eq_of_toNat_eq ?_⟩
      have hbits := congrArg BitVec.toNat (not_not.mp hzero)
      rw [extract_toNat, BitVec.toNat_ofNat] at hbits
      rw [encode, (Mode.ofCode_eq_some _ m).mp hm, append_toNat, append_toNat, extract_toNat, BitVec.toNat_ofNat,
        BitVec.toNat_ofNat, word_toNat_of_opcode hop, BitVec.toNat_ofNat]
      omega

/-- Format F of SET_FIELD (R59, R78). -/
theorem isWordOf_of_decodeSetField {w : Word} {i : Instr} (hop : opcodeOf w = 0x01#8) (h : decodeSetField w = .ok i) :
    IsWordOf w i := by
  unfold decodeSetField at h
  split at h
  case isTrue => cases h
  case isFalse hzero =>
  split at h
  case isTrue => cases h
  case isFalse hwidth =>
  split at h
  case isTrue => cases h
  case isFalse hspan =>
  split at h
  case isTrue => cases h
  case isFalse htarget =>
  cases h
  refine ⟨?_, BitVec.eq_of_toNat_eq ?_⟩
  · simp only [Bool.not_eq_true, Bool.not_eq_false', Bool.and_eq_true] at hwidth hspan htarget
    rw [Instr.wf, hwidth, hspan, htarget.1, htarget.2]
    rfl
  · have hbits := congrArg BitVec.toNat (not_not.mp hzero)
    rw [extract_toNat, BitVec.toNat_ofNat] at hbits
    rw [encode_setField_toNat, word_toNat_of_opcode hop, BitVec.toNat_ofNat]
    simp only [extract_toNat]
    omega

/-- Format F of GET_FIELD (R59, R79). -/
theorem isWordOf_of_decodeGetField {w : Word} {i : Instr} (hop : opcodeOf w = 0x02#8) (h : decodeGetField w = .ok i) :
    IsWordOf w i := by
  unfold decodeGetField at h
  split at h
  case isTrue => cases h
  case isFalse hzero =>
  split at h
  case isTrue => cases h
  case isFalse hwidth =>
  split at h
  case isTrue => cases h
  case isFalse hspan =>
  split at h
  case isTrue => cases h
  case isFalse hvalue =>
  cases h
  refine ⟨?_, BitVec.eq_of_toNat_eq ?_⟩
  · simp only [Bool.not_eq_true, Bool.not_eq_false'] at hwidth hspan
    rw [Instr.wf, hwidth, hspan]
    rfl
  · have hbits := congrArg BitVec.toNat (not_not.mp hzero)
    have hlow := congrArg BitVec.toNat (not_not.mp hvalue)
    rw [extract_toNat, BitVec.toNat_ofNat] at hbits hlow
    rw [encode_getField_toNat, word_toNat_of_opcode hop, BitVec.toNat_ofNat]
    simp only [extract_toNat]
    omega

/-- Format K (R61). -/
theorem isWordOf_of_decodeK {w : Word} {i : Instr} (hop : opcodeOf w = 0x25#8) (h : decodeK w = .ok i) :
    IsWordOf w i := by
  unfold decodeK at h
  split at h
  case isTrue => cases h
  case isFalse hzero =>
  split at h
  case h_2 => cases h
  case h_1 op ot sb fl md hop' hot hsb hfl hmd =>
  cases h
  obtain ⟨hhigh, hlow⟩ := not_or.mp hzero
  have hhigh := congrArg BitVec.toNat (not_not.mp hhigh)
  have hlow := congrArg BitVec.toNat (not_not.mp hlow)
  rw [extract_toNat, BitVec.toNat_ofNat] at hhigh hlow
  refine ⟨rfl, BitVec.eq_of_toNat_eq ?_⟩
  rw [encode_configureAll_toNat, (Osrs.ofCode_eq_some _ op).mp hop', (Osrs.ofCode_eq_some _ ot).mp hot,
    (Standby.ofCode_eq_some _ sb).mp hsb, (Filter.ofCode_eq_some _ fl).mp hfl, (Mode.ofCode_eq_some _ md).mp hmd,
    word_toNat_of_opcode hop, BitVec.toNat_ofNat]
  simp only [extract_toNat]
  omega

/-- Settles O2: the opcode chooses the format, whose must-be-zero bits and fields are then the whole word. -/
theorem encodeOfDecode : Obligations.EncodeOfDecode := by
  intro w i h
  have opcode {n : Nat} (hn : (opcodeOf w).toNat = n) : opcodeOf w = BitVec.ofNat 8 n := by
    rw [← hn, BitVec.ofNat_toNat, BitVec.setWidth_eq]
  unfold decode at h
  split at h
  next hn => exact isWordOf_of_decodeSetField (opcode hn) h
  next hn => exact isWordOf_of_decodeGetField (opcode hn) h
  next hn => exact isWordOf_of_decodeN (opcode hn) h rfl rfl
  next hn => exact isWordOf_of_decodeN (opcode hn) h rfl rfl
  next hn => exact isWordOf_of_decodeN (opcode hn) h rfl rfl
  next hn => exact isWordOf_of_decodeN (opcode hn) h rfl rfl
  next hn => exact isWordOf_of_decodeSetMode (opcode hn) h
  next hn => exact isWordOf_of_decodeE (opcode hn) h (fun c a => (Osrs.ofCode_eq_some c a).mp) (fun _ => rfl) fun _ => rfl
  next hn => exact isWordOf_of_decodeE (opcode hn) h (fun c a => (Osrs.ofCode_eq_some c a).mp) (fun _ => rfl) fun _ => rfl
  next hn =>
    exact isWordOf_of_decodeE (opcode hn) h (fun c a => (Standby.ofCode_eq_some c a).mp) (fun _ => rfl) fun _ => rfl
  next hn =>
    exact isWordOf_of_decodeE (opcode hn) h (fun c a => (Filter.ofCode_eq_some c a).mp) (fun _ => rfl) fun _ => rfl
  next hn => exact isWordOf_of_decodeK (opcode hn) h
  next hn => exact isWordOf_of_decodeN (opcode hn) h rfl rfl
  next hn => exact isWordOf_of_decodeN (opcode hn) h rfl rfl
  next hn => exact isWordOf_of_decodeN (opcode hn) h rfl rfl
  next hn => exact isWordOf_of_decodeN (opcode hn) h rfl rfl
  next hn => exact isWordOf_of_decodeN (opcode hn) h rfl rfl
  next hn => exact isWordOf_of_decodeA (opcode hn) h (fun _ => rfl) fun _ => rfl
  next hn => exact isWordOf_of_decodeA (opcode hn) h (fun _ => rfl) fun _ => rfl
  next hn => exact isWordOf_of_decodeN (opcode hn) h rfl rfl
  next hn => exact isWordOf_of_decodeN (opcode hn) h rfl rfl
  next hn => exact isWordOf_of_decodeN (opcode hn) h rfl rfl
  next => cases h

/-- Settles O3: the decoder evaluated on the words that 95_test_vectors section 2.1 prints. -/
theorem specWordsDecode : Obligations.SpecWordsDecode := by
  unfold Obligations.SpecWordsDecode
  decide

/-! ### Enumerant codes -/

/-- Settles O5: a setter code stands for the enumerant that has it; the codes that are left over stand for none. -/
theorem enumerantCodes : Obligations.EnumerantCodes :=
  ⟨Mode.ofCode_eq_some, by decide, Osrs.ofCode_eq_some, by decide, Standby.ofCode_eq_some, by decide,
    Filter.ofCode_eq_some, by decide, rfl, rfl, rfl, rfl⟩

end Sys2Proof
end

section
/-! A command as its checks (R135) and its own steps: what `exec` comes to, and the statements that follow from the checks
alone. -/

namespace Sys2Proof.Machine

/-! ### The steps of a command -/

/-- Check 5 of R135 holds back every command but INIT. -/
def needsReady : Instr → Bool
  | .init => false
  | _ => true

/-- What GET_MODE answers to the mode field `f` (R121). -/
def answerMode (f : Byte) : Proc RspVal := do
  if f.setWidth 2 = 0b10#2 then
    match (← get).params.mode10Decode with
    | .forced => return .mode 0b01#2
    | .unknown => raise .unknownModeOrFilter
  else return .mode (f.setWidth 2)

/-- A command's own steps, behind the checks of R135. -/
def steps : Instr → Proc RspVal
  | .setField reg start width value => do
    if (← get).mode ≠ .sleep then fault .sleepOnlyActive
    codecSet reg value start.toNat width.toNat
    return .absent
  | .getField reg start width => do return .byte (← codecGet reg start.toNat width.toNat)
  | .init => do initProc; return .absent
  | .deinit => do
    modify fun s => { s with lifecycle := .uninit }
    softReset
    ifDeinit
    return .absent
  | .checkId => do return .byte (← checkIdProc)
  | .reset => do softReset; return .absent
  | .setMode m => do setModeProc m; return .absent
  | .setOsrsP c => do setSleepOnly 0xF4#8 2 c.code; return .absent
  | .setOsrsT c => do setSleepOnly 0xF4#8 5 c.code; return .absent
  | .setStandby c => do setSleepOnly 0xF5#8 5 c.code; return .absent
  | .setFilter c => do setSleepOnly 0xF5#8 2 c.code; return .absent
  | .configureAll op ot sb fl md => do configureAllProc op ot sb fl md; return .absent
  | .getMode => do answerMode (← codecGet 0xF4#8 0 2)
  | .getOsrsP => readCode 0xF4#8 2 fun f => (Osrs.ofCode f).isSome
  | .getOsrsT => readCode 0xF4#8 5 fun f => (Osrs.ofCode f).isSome
  | .getStandby => readCode 0xF5#8 5 fun _ => true
  | .getFilter => readCode 0xF5#8 2 fun f => (Filter.ofCode f).isSome
  | .compT adc => do return .temperature (← compT adc)
  | .compP adc => do return .pressure (← compP adc)
  | .getTemperature => do
    let adc ← fetchRaw 0xFA#8
    return .temperature (← compT adc)
  | .getPressure => do
    requireTFine
    let adc ← fetchRaw 0xF7#8
    return .pressure (← compP adc)
  | .getAll => do
    retrigger
    let adcT ← fetchRaw 0xFA#8
    let t ← compT adcT
    let adcP ← fetchRaw 0xF7#8
    let p ← compP adcP
    return .all t p (← altQuick p)

theorem exec_eq (i : Instr) (s : State) : exec i s = .next (checked (needsReady i) (steps i) s) := by
  cases i <;> rfl

theorem needsReady_of_ne {i : Instr} (h : i ≠ .init) : needsReady i = true := by
  cases i with
  | init => exact absurd rfl h
  | _ => rfl

/-- A command of an operational state runs its own steps. -/
theorem exec_operational {s : State} (h : s.operational) (i : Instr) : exec i s = .next (conclude (steps i s)) := by
  rw [exec_eq, ← runCommand_next, runCommand_operational h]

/-- INIT is served from Uninit too. -/
theorem exec_init_serving {s : State} (h : s.serving) : exec .init s = .next (conclude (steps .init s)) :=
  runCommand_serving h (steps .init)

/-- All a command can come to: a check answers, check 5 faults, or its own steps decide. -/
theorem exec_cases {i : Instr} {s t : State} (h : exec i s = .next t) :
    (s.fault = true ∧ t = s.respond .faulted .absent) ∨
    (s.fault = false ∧ ∃ c, (c = .nullHandle ∨ c = .nullDependency) ∧ t = s.respond c .absent) ∨
    (s.serving ∧ i ≠ .init ∧ s.lifecycle = .uninit ∧ t = s.enterFault .notReady) ∨
    (s.serving ∧ (i = .init ∨ s.lifecycle = .ready) ∧ t = conclude (steps i s)) := by
  rw [exec_eq] at h
  cases h
  obtain ⟨hf, ht⟩ | ⟨hf, -, ht⟩ | ⟨hf, -, -, ht⟩ | ⟨hf, hh, hc, hn, hl, ht⟩ | ⟨hf, hh, hc, hn, ht⟩ :=
    checked_cases (needsReady i) (steps i) s
  · exact .inl ⟨hf, ht⟩
  · exact .inr (.inl ⟨hf, _, .inl rfl, ht⟩)
  · exact .inr (.inl ⟨hf, _, .inr rfl, ht⟩)
  · refine .inr (.inr (.inl ⟨⟨hf, hh, hc⟩, ?_, hl, ht⟩))
    rintro rfl
    cases hn
  · refine .inr (.inr (.inr ⟨⟨hf, hh, hc⟩, ?_, ht⟩))
    by_cases hi : i = .init
    · exact .inl hi
    · exact .inr (hn.resolve_left (by simp [needsReady_of_ne hi]))

/-! ### The step -/

/-- Settles O6: the state with the word taken is written out. -/
theorem stepRunsDecodedInstruction : Obligations.StepRunsDecodedInstruction :=
  fun _ _ _ _ hhost hd _ => step_of_decode_ok hhost hd

/-- Settles O7: check 2 answers the illegal word, and an empty stream gives none. -/
theorem stepWithoutCommand : Obligations.StepWithoutCommand := by
  refine ⟨fun s w rest e hhost hd hf => ?_, fun s => step_of_noWord⟩
  rw [step_of_decode_error hhost hd, State.rejectWord, if_neg (by simp [hf])]
  simp [State.respond, State.log]

/-! ### The checks -/

theorem exec_notReady {i : Instr} {s : State} (hs : s.serving) (hl : s.lifecycle = .uninit) (hi : i ≠ .init) :
    exec i s = .next (s.enterFault .notReady) := by
  obtain ⟨hf, hh, hc⟩ := hs
  rw [exec_eq, checked, if_neg (by simp [hf]), if_neg (by simp [hh]), if_neg (by simp [hc]),
    if_pos (by simp [needsReady_of_ne hi, hl])]

/-- Settles O9: the four checks of `checked` in their order. -/
theorem checkOrder : Obligations.CheckOrder := by
  refine fun i s => ⟨fun hf => exec_faulted hf i, fun hf hh => ?_, fun hf hh hc => ?_, exec_notReady⟩
  · rw [exec_eq, checked, if_neg (by simp [hf]), if_pos (by simp [hh])]
    rfl
  · rw [exec_eq, checked, if_neg (by simp [hf]), if_neg (by simp [hh]), if_pos (by simp [hc])]
    rfl

theorem requireTFine_run (s : State) :
    requireTFine s = if s.tFineValid then .ok () s else .error (.fault .tfineUnset) s := by
  rw [requireTFine, bind_run_ok (get_run s)]
  cases s.tFineValid <;> rfl

theorem requireTFine_valid {s : State} (h : s.tFineValid = true) : requireTFine s = .ok () s := by
  rw [requireTFine_run, if_pos h]

theorem requireTFine_unset {s : State} (h : s.tFineValid = false) :
    requireTFine s = .error (.fault .tfineUnset) s := by
  rw [requireTFine_run, if_neg (by simp [h])]

/-- CompP needs a temperature first (R87). -/
theorem compP_unset {s : State} (adc : U20) (h : s.tFineValid = false) :
    compP adc s = .error (.fault .tfineUnset) s := bind_run_error (requireTFine_unset h)

/-- CompP reads no bus and writes no register. -/
theorem compP_valid {s : State} (adc : U20) (h : s.tFineValid = true) :
    compP adc s = .ok (compensatedPressure s.cal s.tFine adc) s := by
  rw [compP, bind_run_ok (requireTFine_valid h), bind_run_ok (get_run s), pure_run]

/-- SET_FIELD's own check (R78). -/
theorem steps_setField_notSleep {s : State} (reg : Byte) (start : BitVec 3) (width : BitVec 4) (value : Byte)
    (h : s.mode ≠ .sleep) : steps (.setField reg start width value) s = .error (.fault .sleepOnlyActive) s := by
  rw [steps, bind_run_ok (get_run s), if_pos h]
  exact bind_run_error (fault_run _ s)

/-- With the check passed SET_FIELD is the codec's write. -/
theorem steps_setField_sleep {s : State} (reg : Byte) (start : BitVec 3) (width : BitVec 4) (value : Byte)
    (h : s.mode = .sleep) :
    steps (.setField reg start width value) s =
      (codecSet reg value start.toNat width.toNat >>= fun _ => pure RspVal.absent) s := by
  rw [steps, bind_run_ok (get_run s), if_neg (not_not.mpr h)]

/-- Settles O10: each command's own check is its first step, so the fault leaves the state as it was. -/
theorem ownPreconditionFaults : Obligations.OwnPreconditionFaults := by
  refine ⟨fun s reg start width value hop hm => ?_, fun s i hi hop hv => ?_⟩
  · rw [exec_operational hop, steps_setField_notSleep reg start width value hm]
    rfl
  · rw [exec_operational hop]
    obtain rfl | ⟨adc, rfl⟩ := hi
    · rw [steps, bind_run_error (requireTFine_unset hv)]
      rfl
    · rw [steps, bind_run_error (compP_unset adc hv)]
      rfl

/-- Settles O12: the memory at reset is canonical, and the rest is what `State.reset` writes. -/
theorem resetState : Obligations.ResetState :=
  ⟨rfl, rfl, rfl, rfl, rfl, rfl, rfl, rfl, rfl, rfl, initialMemory_wf, (nomatch ·),
    by simp [State.reset], le_rfl⟩

/-- Settles O53: both run to their end without a call, COMP_P because its T_FINE is valid. -/
theorem datapathCommandsResult : Obligations.DatapathCommandsResult := by
  refine ⟨fun s adc hop => ?_, fun s adc hop hv => ?_⟩
  · rw [exec_operational hop, steps, bind_run_ok (compT_run adc s)]
    rfl
  · rw [exec_operational hop, steps, bind_run_ok (compP_valid adc hv)]
    rfl

end Sys2Proof.Machine
end

section
/-! Which registers each command's own steps may write (10_state section 1), and the statements that follow: every relation
closed under capability calls and under those writes is kept by the steps. -/

namespace Sys2Proof.Machine

/-! ### Registers -/

/-- The registers that a command's own steps write; the fault state is written by the checks' answers alone. -/
inductive Register where
  | lifecycle | mode | addrValid | cal | calValid | tFine | tFineValid | pollBudget | pstate
deriving DecidableEq

/-- The registers each command's own steps may write (R19 to R27). -/
def writes : Instr → List Register
  | .setField _ _ _ _ => []
  | .getField _ _ _ => []
  | .init => [.lifecycle, .mode, .addrValid, .cal, .calValid, .tFineValid, .pollBudget]
  | .deinit => [.lifecycle, .mode]
  | .checkId => [.lifecycle, .addrValid]
  | .reset => [.mode]
  | .setMode _ => [.mode]
  | .setOsrsP _ => [.mode]
  | .setOsrsT _ => [.mode]
  | .setStandby _ => [.mode]
  | .setFilter _ => [.mode]
  | .configureAll _ _ _ _ _ => [.mode]
  | .getMode => []
  | .getOsrsP => []
  | .getOsrsT => []
  | .getStandby => []
  | .getFilter => []
  | .compT _ => [.tFine, .tFineValid]
  | .compP _ => []
  | .getTemperature => [.tFine, .tFineValid, .pollBudget, .pstate]
  | .getPressure => [.pollBudget, .pstate]
  | .getAll => [.tFine, .tFineValid, .pollBudget, .pstate]

/-- `s` with the registers of `W` as they are in `t`. -/
def State.taking (s : State) (W : List Register) (t : State) : State :=
  { s with
    lifecycle := if .lifecycle ∈ W then t.lifecycle else s.lifecycle
    mode := if .mode ∈ W then t.mode else s.mode
    addrValid := if .addrValid ∈ W then t.addrValid else s.addrValid
    cal := if .cal ∈ W then t.cal else s.cal
    calValid := if .calValid ∈ W then t.calValid else s.calValid
    tFine := if .tFine ∈ W then t.tFine else s.tFine
    tFineValid := if .tFineValid ∈ W then t.tFineValid else s.tFineValid
    pollBudget := if .pollBudget ∈ W then t.pollBudget else s.pollBudget
    pstate := if .pstate ∈ W then t.pstate else s.pstate }

/-- `t` is `s` with registers of `W` written; the poll budget is re-armed or does not grow. -/
structure Written (W : List Register) (s t : State) : Prop where
  registers : t = s.taking W t
  budget : t.pollBudget = s.params.pollCeilingMs ∨ t.pollBudget.toNat ≤ s.pollBudget.toNat

theorem Written.mem {W : List Register} {s t : State} (h : Written W s t) : t.mem = s.mem := by
  rw [h.registers]
  rfl

theorem written_spendPeriod {W : List Register} {s : State} (hW : .pollBudget ∈ W)
    (h : s.pollBudget.ult s.params.pollPeriod.ms = false) : Written W s s.spendPeriod := by
  refine ⟨by simp [State.taking, State.spendPeriod, hW], .inr ?_⟩
  have hk : s.wholePeriods ≠ 0 := fun hk => by simp [s.ult_period_iff.mpr hk] at h
  exact State.spendPeriod_toNat hk ▸ Nat.le_add_right _ _

/-- Every block register outside `W`, the fault state among them, the parameters and the host's stream are the same. -/
def SameBut (W : List Register) (s t : State) : Prop := sameBlock (s.taking W t) t

theorem sameBut_iff (W : List Register) (s t : State) :
    SameBut W s t ↔
      (.lifecycle ∉ W → t.lifecycle = s.lifecycle) ∧ (.mode ∉ W → t.mode = s.mode) ∧
      (.addrValid ∉ W → t.addrValid = s.addrValid) ∧ (.cal ∉ W → t.cal = s.cal) ∧
      (.calValid ∉ W → t.calValid = s.calValid) ∧ (.tFine ∉ W → t.tFine = s.tFine) ∧
      (.tFineValid ∉ W → t.tFineValid = s.tFineValid) ∧ (.pollBudget ∉ W → t.pollBudget = s.pollBudget) ∧
      (.pstate ∉ W → t.pstate = s.pstate) ∧ t.fault = s.fault ∧ t.faultCause = s.faultCause ∧
      t.params = s.params ∧ t.host = s.host := by
  simp [SameBut, State.taking, sameBlock_iff]

section
variable {W : List Register} {s t : State} (h : SameBut W s t)
include h

theorem SameBut.lifecycle (hW : .lifecycle ∉ W) : t.lifecycle = s.lifecycle := ((sameBut_iff W s t).mp h).1 hW

theorem SameBut.fault : t.fault = s.fault := by
  obtain ⟨-, -, -, -, -, -, -, -, -, hfault, -⟩ := (sameBut_iff W s t).mp h
  exact hfault

theorem SameBut.faultCause : t.faultCause = s.faultCause := by
  obtain ⟨-, -, -, -, -, -, -, -, -, -, hcause, -⟩ := (sameBut_iff W s t).mp h
  exact hcause

theorem SameBut.tFineValid (hW : .tFineValid ∉ W) : t.tFineValid = s.tFineValid := by
  obtain ⟨-, -, -, -, -, -, hvalid, -⟩ := (sameBut_iff W s t).mp h
  exact hvalid hW

theorem SameBut.params : t.params = s.params := by
  obtain ⟨-, -, -, -, -, -, -, -, -, -, -, hparams, -⟩ := (sameBut_iff W s t).mp h
  exact hparams

end

theorem sameBut_of_sameBlock (W : List Register) {s t : State} (h : sameBlock s t) : SameBut W s t := by
  rw [sameBut_iff]
  rw [sameBlock_iff] at h
  simp [h]

theorem Written.sameBut {W : List Register} {s t : State} (h : Written W s t) : SameBut W s t :=
  (congrArg (sameBlock · t) h.registers).mp (sameBlock_refl t)

theorem SameBut.trans {W : List Register} {s t u : State} (h1 : SameBut W s t) (h2 : SameBut W t u) : SameBut W s u := by
  rw [sameBut_iff] at *
  simp_all

theorem sameBut_callClosed (W : List Register) : CallClosed (SameBut W) where
  refl s := sameBut_of_sameBlock W (sameBlock_refl s)
  trans _ _ _ := SameBut.trans
  answer s := sameBut_of_sameBlock W (sameBlock_nextAnswer s)
  log s e := sameBut_of_sameBlock W (sameBlock_log s e)
  before s a reg n := sameBut_of_sameBlock W (sameBlock_beforeRead s a reg n)
  accept s a bs := sameBut_of_sameBlock W (sameBlock_acceptBytes s a bs)
  waited s ms := sameBut_of_sameBlock W (sameBlock_waited s ms)

/-! ### The steps keep what the calls and the command's writes keep -/

theorem keeps_answerMode {R : State → State → Prop} (h : CallClosed R) (f : Byte) : Keeps R (answerMode f) := by
  unfold answerMode
  by_cases hf : f.setWidth 2 = 0b10#2
  · rw [if_pos hf]
    refine keeps_get_bind fun s => ?_
    cases s.params.mode10Decode <;> exact h.refl s
  · rw [if_neg hf]
    exact keeps_pure h _

theorem keeps_initProc {R : State → State → Prop} (h : CallClosed R)
    (hw : ∀ s t, Written (writes .init) s t → R s t) : Keeps R initProc := by
  have put {s t : State} (h : t = s.taking (writes .init) t) (hb : t.pollBudget = s.pollBudget) : R s t :=
    hw s t ⟨h, .inr (by rw [hb])⟩
  exact keeps_bind h (keeps_modify fun _ => put rfl rfl) fun _ => keeps_bind h (keeps_ifInit h) fun _ =>
    keeps_bind h (keeps_modify fun _ => put rfl rfl) fun _ =>
    keeps_bind h (keeps_checkIdProc h fun _ => put rfl rfl) fun _ =>
    keeps_bind h (keeps_softReset h fun _ _ => put rfl rfl) fun _ =>
    keeps_get_bind fun s => keeps_bind h (keeps_delay h _)
      (fun _ => keeps_bind h (keeps_fetchCal h (fun _ => put rfl rfl) fun _ _ => put rfl rfl) fun _ =>
        keeps_bind h (keeps_configureAllProc h (fun _ _ => put rfl rfl) _ _ _ _ _) fun _ =>
        keeps_modify fun s => hw s _ ⟨rfl, .inl rfl⟩) s

theorem keeps_fetchRaw_of_written {R : State → State → Prop} (h : CallClosed R) {W : List Register}
    (hW : .pollBudget ∈ W ∧ .pstate ∈ W) (hw : ∀ s t, Written W s t → R s t) (base : Byte) : Keeps R (fetchRaw base) := by
  obtain ⟨hb, hp⟩ := hW
  have harm {s : State} {p : PState} : Written W s { s with pollBudget := s.params.pollCeilingMs, pstate := p } :=
    ⟨by simp [State.taking, hb, hp], .inl rfl⟩
  have hstate {s : State} {p : PState} : Written W s { s with pstate := p } :=
    ⟨by simp [State.taking, hp], .inr le_rfl⟩
  exact keeps_fetchRaw h (fun s => hw s _ harm) (fun s => hw s _ hstate) (fun s => hw s _ hstate) (fun s => hw s _ harm)
    (fun s hk => hw s _ (written_spendPeriod hb hk)) base

theorem keeps_steps {R : State → State → Prop} (h : CallClosed R) (i : Instr)
    (hw : ∀ s t, Written (writes i) s t → R s t) : Keeps R (steps i) := by
  have put {s t : State} (h : t = s.taking (writes i) t) (hb : t.pollBudget = s.pollBudget) : R s t :=
    hw s t ⟨h, .inr (by rw [hb])⟩
  cases i with
  | setField reg start width value =>
    intro s
    by_cases hm : s.mode = .sleep
    · rw [steps_setField_sleep reg start width value hm]
      exact keeps_bind h (keeps_codecSet h _ _ _ _) (fun _ => keeps_pure h _) s
    · rw [steps_setField_notSleep reg start width value hm]
      exact h.refl s
  | getField => exact keeps_bind h (keeps_codecGet h _ _ _) fun _ => keeps_pure h _
  | init => exact keeps_bind h (keeps_initProc h hw) fun _ => keeps_pure h _
  | deinit =>
    exact keeps_bind h (keeps_modify fun _ => put rfl rfl) fun _ =>
      keeps_bind h (keeps_softReset h fun _ _ => put rfl rfl) fun _ =>
      keeps_bind h (keeps_ifDeinit h) fun _ => keeps_pure h _
  | checkId => exact keeps_bind h (keeps_checkIdProc h fun _ => put rfl rfl) fun _ => keeps_pure h _
  | reset => exact keeps_bind h (keeps_softReset h fun _ _ => put rfl rfl) fun _ => keeps_pure h _
  | setMode => exact keeps_bind h (keeps_setModeProc h (fun _ _ => put rfl rfl) _) fun _ => keeps_pure h _
  | setOsrsP => exact keeps_bind h (keeps_setSleepOnly h (fun _ _ => put rfl rfl) _ _ _) fun _ => keeps_pure h _
  | setOsrsT => exact keeps_bind h (keeps_setSleepOnly h (fun _ _ => put rfl rfl) _ _ _) fun _ => keeps_pure h _
  | setStandby => exact keeps_bind h (keeps_setSleepOnly h (fun _ _ => put rfl rfl) _ _ _) fun _ => keeps_pure h _
  | setFilter => exact keeps_bind h (keeps_setSleepOnly h (fun _ _ => put rfl rfl) _ _ _) fun _ => keeps_pure h _
  | configureAll =>
    exact keeps_bind h (keeps_configureAllProc h (fun _ _ => put rfl rfl) _ _ _ _ _) fun _ => keeps_pure h _
  | getMode => exact keeps_bind h (keeps_codecGet h _ _ _) fun f => keeps_answerMode h f
  | getOsrsP => rw [steps]; exact keeps_readCode h _ _ _
  | getOsrsT => rw [steps]; exact keeps_readCode h _ _ _
  | getStandby => rw [steps]; exact keeps_readCode h _ _ _
  | getFilter => rw [steps]; exact keeps_readCode h _ _ _
  | compT => exact keeps_bind h (keeps_compT h (fun _ _ => put rfl rfl) _) fun _ => keeps_pure h _
  | compP => exact keeps_bind h (keeps_compP h _) fun _ => keeps_pure h _
  | getTemperature =>
    exact keeps_bind h (keeps_fetchRaw_of_written h (by decide) hw _) fun _ =>
      keeps_bind h (keeps_compT h (fun _ _ => put rfl rfl) _) fun _ => keeps_pure h _
  | getPressure =>
    exact keeps_bind h (keeps_requireTFine h) fun _ =>
      keeps_bind h (keeps_fetchRaw_of_written h (by decide) hw _) fun _ =>
      keeps_bind h (keeps_compP h _) fun _ => keeps_pure h _
  | getAll =>
    exact keeps_bind h (keeps_retrigger h) fun _ => keeps_bind h (keeps_fetchRaw_of_written h (by decide) hw _) fun _ =>
      keeps_bind h (keeps_compT h (fun _ _ => put rfl rfl) _) fun _ =>
      keeps_bind h (keeps_fetchRaw_of_written h (by decide) hw _) fun _ =>
      keeps_bind h (keeps_compP h _) fun _ => keeps_bind h (keeps_altQuick h _) fun _ => keeps_pure h _

/-- A command's own steps write no register but the command's. -/
theorem steps_sameBut (i : Instr) : Keeps (SameBut (writes i)) (steps i) :=
  keeps_steps (sameBut_callClosed _) i fun _ _ => Written.sameBut

theorem fetchRaw_sameBut (base : Byte) : Keeps (SameBut [.pollBudget, .pstate]) (fetchRaw base) :=
  keeps_fetchRaw_of_written (sameBut_callClosed _) (by decide) (fun _ _ => Written.sameBut) base

end Sys2Proof.Machine
end

section
/-! How a command's own steps can end: the stops they can come to and the values they can return (60_exceptions section 1,
30_encoding section 5). -/

namespace Sys2Proof.Machine

/-! ### What a procedure can end in -/

/-- A result is a value of `V` or a stop of `E`. -/
inductive EndsIn {α : Type} (E : Stop → Prop) (V : α → Prop) : EStateM.Result Stop State α → Prop
  | value {a : α} (t : State) : V a → EndsIn E V (.ok a t)
  | stop {e : Stop} (t : State) : E e → EndsIn E V (.error e t)

/-- Every run of the procedure returns a value of `V` or ends in a stop of `E`. -/
def Ends {α : Type} (E : Stop → Prop) (V : α → Prop) (p : Proc α) : Prop := ∀ s, EndsIn E V (p s)

section
variable {E : Stop → Prop} {α β : Type} {V : α → Prop} {W : β → Prop}

theorem ends_pure {a : α} (h : V a) : Ends E V (pure a : Proc α) := fun s => .value s h

theorem ends_raise {c : RspCode} (h : E (.raise c)) : Ends E V (raise c : Proc α) := fun s => .stop s h

theorem ends_modify (f : State → State) : Ends E (fun _ => True) (modify f : Proc PUnit) := fun s => .value (f s) trivial

theorem ends_set (u : State) : Ends E (fun _ => True) (set u : Proc PUnit) := fun _ => .value u trivial

theorem ends_get : Ends E (fun _ => True) (get : Proc State) := fun s => .value s trivial

/-- What follows a procedure is looked at in the state the procedure ends in. -/
theorem endsIn_bind {p : Proc α} {f : α → Proc β} {s : State} (hp : Ends E V p)
    (hf : ∀ a t, p s = .ok a t → V a → EndsIn E W (f a t)) : EndsIn E W ((p >>= f) s) := by
  have h := hp s
  cases hrun : p s with
  | ok a t =>
    rw [hrun] at h
    cases h with
    | value t ha => exact bind_run_ok hrun ▸ hf a t hrun ha
  | error e t =>
    rw [hrun] at h
    cases h with
    | stop t he => exact bind_run_error hrun ▸ .stop t he

theorem ends_bind {p : Proc α} {f : α → Proc β} (hp : Ends E V p) (hf : ∀ a, V a → Ends E W (f a)) :
    Ends E W (p >>= f) := fun _ => endsIn_bind hp fun a t _ ha => hf a ha t

end

/-! ### The capability calls and the shared procedures -/

section
variable {E : Stop → Prop} (hE : E (.raise .interfaceError))
include hE

theorem ends_memRead (reg : Byte) (n : Nat) : Ends E (fun _ => True) (memRead reg n) := by
  intro s
  rw [memRead_run]
  split
  · exact .value _ trivial
  · exact .stop _ hE

theorem ends_memWrite (reg : Byte) (bytes : List Byte) : Ends E (fun _ => True) (memWrite reg bytes) := by
  intro s
  rw [memWrite_run]
  split
  · exact .value _ trivial
  · split <;> exact .stop _ hE

theorem ends_delay (ms : U32) : Ends E (fun _ => True) (delay ms) := by
  intro s
  rw [delay_run]
  split
  · exact .value _ trivial
  · exact .stop _ hE

theorem ends_ifInit : Ends E (fun _ => True) ifInit := by
  intro s
  rw [ifInit_run]
  split
  · exact .value _ trivial
  · exact .stop _ hE

theorem ends_ifDeinit : Ends E (fun _ => True) ifDeinit := by
  intro s
  rw [ifDeinit_run]
  split
  · exact .value _ trivial
  · exact .stop _ hE

theorem ends_power (x y : Rat) : Ends E (fun _ => True) (power x y) := by
  intro s
  rw [power_run]
  split
  · exact .value _ trivial
  · exact .stop _ hE

theorem ends_codecSet (reg value : Byte) (start width : Nat) : Ends E (fun _ => True) (codecSet reg value start width) :=
  ends_bind (ends_memRead hE reg 1) fun _ _ => ends_memWrite hE _ _

theorem ends_codecGet (reg : Byte) (start width : Nat) : Ends E (fun _ => True) (codecGet reg start width) :=
  ends_bind (ends_memRead hE reg 1) fun _ _ => ends_pure trivial

theorem ends_setModeProc (m : Mode) : Ends E (fun _ => True) (setModeProc m) :=
  ends_bind (ends_codecSet hE _ _ _ _) fun _ _ => ends_modify _

theorem ends_setSleepOnly (reg : Byte) (start : Nat) (code : BitVec 3) :
    Ends E (fun _ => True) (setSleepOnly reg start code) :=
  ends_bind ends_get fun _ _ => ends_bind (ends_setModeProc hE _) fun _ _ => ends_bind (ends_codecSet hE _ _ _ _)
    fun _ _ => ends_setModeProc hE _

theorem ends_configureAllProc (op ot : Osrs) (sb : Standby) (fl : Filter) (md : Mode) :
    Ends E (fun _ => True) (configureAllProc op ot sb fl md) :=
  ends_bind (ends_setSleepOnly hE _ _ _) fun _ _ => ends_bind (ends_setSleepOnly hE _ _ _) fun _ _ =>
    ends_bind (ends_setSleepOnly hE _ _ _) fun _ _ => ends_bind (ends_setSleepOnly hE _ _ _) fun _ _ =>
      ends_setModeProc hE _

theorem ends_softReset : Ends E (fun _ => True) softReset :=
  ends_bind (ends_memWrite hE _ _) fun _ _ => ends_modify _

/-- CheckIdProc returns no other byte than the right chip's ID (R107). -/
theorem ends_checkIdProc (hid : E (.raise .sensorIdError)) : Ends E (· = 0x58#8) checkIdProc := by
  refine ends_bind (ends_memRead hE _ _) fun bytes _ => ?_
  by_cases hb : bytes.getD 0 0 ≠ 0x58#8
  · rw [if_pos hb]
    exact ends_bind (ends_modify _) fun _ _ => ends_raise hid
  · rw [if_neg hb]
    exact ends_pure (not_not.mp hb)

theorem ends_readCalWord (reg : Byte) : Ends E (fun _ => True) (readCalWord reg) :=
  ends_bind (ends_memRead hE _ _) fun _ _ => ends_pure trivial

theorem ends_fetchCal : Ends E (fun _ => True) fetchCal := by
  refine ends_bind (ends_modify _) fun _ _ => ends_bind (V := fun _ => True) ?_ fun _ _ => ends_modify _
  unfold readCalib
  iterate 12 refine ends_bind (ends_readCalWord hE _) fun _ _ => ?_
  exact ends_pure trivial

theorem ends_initProc (hid : E (.raise .sensorIdError)) : Ends E (fun _ => True) initProc :=
  ends_bind (ends_modify _) fun _ _ => ends_bind (ends_ifInit hE) fun _ _ => ends_bind (ends_modify _) fun _ _ =>
    ends_bind (ends_checkIdProc hE hid) fun _ _ => ends_bind (ends_softReset hE) fun _ _ => ends_bind ends_get fun _ _ =>
      ends_bind (ends_delay hE _) fun _ _ => ends_bind (ends_fetchCal hE) fun _ _ =>
        ends_bind (ends_configureAllProc hE _ _ _ _ _) fun _ _ => ends_modify _

/-- A code that `valid` takes for an enumerant's is returned, any other raises (R120). -/
theorem ends_readCode {V : RspVal → Prop} (reg : Byte) (start : Nat) {valid : BitVec 3 → Bool}
    (hV : ∀ c, valid c = true → V (.code c)) (hbad : ∀ c, valid c = false → E (.raise .unknownModeOrFilter)) :
    Ends E V (readCode reg start valid) := by
  refine ends_bind (ends_codecGet hE _ _ _) fun f _ => ?_
  cases hv : valid (f.setWidth 3) with
  | true => exact ends_pure (hV _ hv)
  | false => exact ends_raise (hbad _ hv)

theorem ends_pollLoop (ht : E (.raise .pollTimeoutError)) (n : Nat) : Ends E (fun _ => True) (pollLoop n) := by
  induction n with
  | zero => exact ends_bind (ends_modify _) fun _ _ => ends_raise ht
  | succ n ih =>
    refine ends_bind (ends_codecGet hE _ _ _) fun m _ => ends_bind ends_get fun s _ => ?_
    by_cases hm : m = 0#8
    · rw [if_pos hm]
      exact ends_set _
    rw [if_neg hm]
    by_cases hb : s.pollBudget.ult s.params.pollPeriod.ms
    · rw [if_pos hb]
      exact ends_bind (ends_set _) fun _ _ => ends_raise ht
    · rw [if_neg hb]
      exact ends_bind (ends_set _) fun _ _ => ends_bind (ends_delay hE _) fun _ _ => ih

theorem ends_fetchRaw (ht : E (.raise .pollTimeoutError)) (base : Byte) : Ends E (fun _ => True) (fetchRaw base) := by
  have hpoll : Ends E (fun _ => True) poll :=
    ends_bind (ends_modify _) fun _ _ => ends_bind ends_get fun _ _ => ends_pollLoop hE ht _
  exact ends_bind (ends_modify _) fun _ _ => ends_bind hpoll fun _ _ => ends_bind (ends_memRead hE _ _) fun _ _ =>
    ends_pure trivial

theorem ends_retrigger : Ends E (fun _ => True) retrigger := by
  refine ends_bind ends_get fun s _ => ?_
  by_cases hm : s.mode = .forced
  · rw [if_pos hm]
    exact ends_codecSet hE _ _ _ _
  · rw [if_neg hm]
    exact ends_pure trivial

theorem ends_altQuick (p : U32) : Ends E (fun _ => True) (altQuick p) :=
  ends_bind (ends_power hE _ _) fun _ _ => ends_pure trivial

end

theorem ends_compT {E : Stop → Prop} (adc : U20) : Ends E (fun _ => True) (compT adc) :=
  fun s => compT_run adc s ▸ .value _ trivial

theorem ends_requireTFine {E : Stop → Prop} (hf : E (.fault .tfineUnset)) : Ends E (fun _ => True) requireTFine := by
  intro s
  rw [requireTFine_run]
  split
  · exact .value _ trivial
  · exact .stop _ hf

theorem ends_compP {E : Stop → Prop} (hf : E (.fault .tfineUnset)) (adc : U20) : Ends E (fun _ => True) (compP adc) :=
  ends_bind (ends_requireTFine hf) fun _ _ => ends_bind ends_get fun _ _ => ends_pure trivial

/-- GET_MODE never answers 10, whatever MODE10_DECODE says (R121). -/
theorem ends_answerMode {E : Stop → Prop} (hE : E (.raise .unknownModeOrFilter)) (f : Byte) :
    Ends E (okValue .getMode) (answerMode f) := by
  unfold answerMode
  by_cases hf : f.setWidth 2 = 0b10#2
  · rw [if_pos hf]
    refine ends_bind ends_get fun s _ => ?_
    cases s.params.mode10Decode with
    | forced => exact ends_pure ⟨_, rfl, by decide⟩
    | unknown => exact ends_raise hE
  · rw [if_neg hf]
    exact ends_pure ⟨_, rfl, hf⟩

/-! ### The steps of each command -/

/-- The stops R133 gives a command's row: its further codes and its faults. -/
def stopsOf (i : Instr) : Stop → Prop
  | .raise c => c ∈ furtherCodes i
  | .fault f => f ∈ takesFaults i

/-- GET_ALL's pressure step finds the T_FINE that its temperature step wrote: fetching the pressure count keeps it. -/
theorem endsIn_getAll_pressure {s : State} (h : s.tFineValid = true) (t : S32) :
    EndsIn (stopsOf .getAll) (okValue .getAll)
      ((fetchRaw 0xF7#8 >>= fun adc => compP adc >>= fun p => altQuick p >>= fun alt =>
        pure (RspVal.all t p alt)) s) := by
  have hE : stopsOf .getAll (.raise .interfaceError) := List.mem_cons_self
  have ht : stopsOf .getAll (.raise .pollTimeoutError) := by simp [stopsOf, furtherCodes]
  refine endsIn_bind (ends_fetchRaw hE ht 0xF7#8) fun adc u hu _ => ?_
  have hkeeps := fetchRaw_sameBut 0xF7#8 s
  rw [hu] at hkeeps
  have hvalid : u.tFineValid = true := (hkeeps.tFineValid (by decide)).trans h
  rw [bind_run_ok (compP_valid adc hvalid)]
  exact ends_bind (ends_altQuick hE _) (fun alt _ => ends_pure ⟨t, _, alt, rfl⟩) u

theorem steps_ends (i : Instr) : Ends (stopsOf i) (okValue i) (steps i) := by
  have first {i : Instr} {c : RspCode} {cs : List RspCode} (h : furtherCodes i = c :: cs) : stopsOf i (.raise c) := by
    simp [stopsOf, h]
  have second {i : Instr} {c c' : RspCode} (h : furtherCodes i = [c', c]) : stopsOf i (.raise c) := by
    simp [stopsOf, h]
  have own {i : Instr} {f : FaultCause} (h : takesFaults i = [.notReady, f]) : stopsOf i (.fault f) := by
    simp [stopsOf, h]
  cases i with
  | setField reg start width value =>
    intro s
    by_cases hm : s.mode = .sleep
    · rw [steps_setField_sleep reg start width value hm]
      exact ends_bind (W := okValue (.setField reg start width value)) (ends_codecSet (first rfl) _ _ _ _)
        (fun _ _ => ends_pure rfl) s
    · rw [steps_setField_notSleep reg start width value hm]
      exact .stop s (own rfl)
  | getField => exact ends_bind (ends_codecGet (first rfl) _ _ _) fun b _ => ends_pure ⟨b, rfl⟩
  | init => exact ends_bind (ends_initProc (first rfl) (second rfl)) fun _ _ => ends_pure rfl
  | deinit =>
    exact ends_bind (ends_modify _) fun _ _ => ends_bind (ends_softReset (first rfl)) fun _ _ =>
      ends_bind (ends_ifDeinit (first rfl)) fun _ _ => ends_pure rfl
  | checkId => exact ends_bind (ends_checkIdProc (first rfl) (second rfl)) fun b hb => ends_pure (congrArg RspVal.byte hb)
  | reset => exact ends_bind (ends_softReset (first rfl)) fun _ _ => ends_pure rfl
  | setMode => exact ends_bind (ends_setModeProc (first rfl) _) fun _ _ => ends_pure rfl
  | setOsrsP => exact ends_bind (ends_setSleepOnly (first rfl) _ _ _) fun _ _ => ends_pure rfl
  | setOsrsT => exact ends_bind (ends_setSleepOnly (first rfl) _ _ _) fun _ _ => ends_pure rfl
  | setStandby => exact ends_bind (ends_setSleepOnly (first rfl) _ _ _) fun _ _ => ends_pure rfl
  | setFilter => exact ends_bind (ends_setSleepOnly (first rfl) _ _ _) fun _ _ => ends_pure rfl
  | configureAll => exact ends_bind (ends_configureAllProc (first rfl) _ _ _ _ _) fun _ _ => ends_pure rfl
  | getMode => exact ends_bind (ends_codecGet (first rfl) _ _ _) fun f _ => ends_answerMode (second rfl) f
  | getOsrsP =>
    rw [steps]
    refine ends_readCode (first rfl) _ _ (fun c hc => ?_) fun _ _ => second rfl
    obtain ⟨o, ho⟩ := Osrs.exists_code c hc
    exact ⟨o, congrArg RspVal.code ho⟩
  | getOsrsT =>
    rw [steps]
    refine ends_readCode (first rfl) _ _ (fun c hc => ?_) fun _ _ => second rfl
    obtain ⟨o, ho⟩ := Osrs.exists_code c hc
    exact ⟨o, congrArg RspVal.code ho⟩
  | getStandby =>
    rw [steps]
    refine ends_readCode (first rfl) _ _ (fun c _ => ?_) fun _ hc => by cases hc
    obtain ⟨o, ho⟩ := Standby.exists_code c
    exact ⟨o, congrArg RspVal.code ho⟩
  | getFilter =>
    rw [steps]
    refine ends_readCode (first rfl) _ _ (fun c hc => ?_) fun _ _ => second rfl
    obtain ⟨o, ho⟩ := Filter.exists_code c hc
    exact ⟨o, congrArg RspVal.code ho⟩
  | compT => exact ends_bind (ends_compT _) fun t _ => ends_pure ⟨t, rfl⟩
  | compP => exact ends_bind (ends_compP (own rfl) _) fun p _ => ends_pure ⟨p, rfl⟩
  | getTemperature =>
    exact ends_bind (ends_fetchRaw (first rfl) (second rfl) _) fun _ _ => ends_bind (ends_compT _) fun t _ =>
      ends_pure ⟨t, rfl⟩
  | getPressure =>
    exact ends_bind (ends_requireTFine (own rfl)) fun _ _ => ends_bind (ends_fetchRaw (first rfl) (second rfl) _)
      fun _ _ => ends_bind (ends_compP (own rfl) _) fun p _ => ends_pure ⟨p, rfl⟩
  | getAll =>
    exact ends_bind (ends_retrigger (first rfl)) fun _ _ => ends_bind (ends_fetchRaw (first rfl) (second rfl) _)
      fun adc _ s => by
        rw [bind_run_ok (compT_run adc s)]
        exact endsIn_getAll_pressure rfl _

/-! ### The answer of a command -/

/-- What R133 and R72 allow a command to answer when it takes no fault. -/
structure Answers (i : Instr) (c : RspCode) (v : RspVal) : Prop where
  code : c ∈ commonCodes ∨ c ∈ furtherCodes i
  legal : c ≠ .illegalCommand
  noValue : c ≠ .ok → v = .absent
  value : c = .ok → okValue i v

theorem notReady_mem_takesFaults {i : Instr} (h : i ≠ .init) : .notReady ∈ takesFaults i := by
  cases i with
  | init => exact absurd rfl h
  | _ => exact List.mem_cons_self

theorem furtherCodes_ne {i : Instr} {c : RspCode} (h : c ∈ furtherCodes i) : c ≠ .ok ∧ c ≠ .illegalCommand := by
  have hall : ∀ c ∈ furtherCodes i, c ≠ .ok ∧ c ≠ .illegalCommand := by cases i <;> simp [furtherCodes]
  exact hall c h

theorem none_notMem_takesFaults (i : Instr) : .none ∉ takesFaults i := by
  cases i <;> simp [takesFaults]

/-- All a command can come to: in the state as it was or in the one its own steps ended in, an answer of its row or a
fault of its row. -/
theorem exec_answers {i : Instr} {s t : State} (h : exec i s = .next t) :
    ∃ u, (u = s ∨ u = endState (steps i s)) ∧ SameBut (writes i) s u ∧
      ((∃ c v, Answers i c v ∧ t = u.respond c v) ∨ ∃ f ∈ takesFaults i, t = u.enterFault f) := by
  have hs : SameBut (writes i) s s := (sameBut_callClosed _).refl s
  have checked {c : RspCode} (hc : c ∈ commonCodes) (hlegal : c ≠ .illegalCommand) (hok : c ≠ .ok) :
      Answers i c .absent := ⟨.inl hc, hlegal, fun _ => rfl, fun he => absurd he hok⟩
  obtain ⟨-, rfl⟩ | ⟨-, c, rfl | rfl, rfl⟩ | ⟨-, hi, -, rfl⟩ | ⟨-, -, rfl⟩ := exec_cases h
  · exact ⟨s, .inl rfl, hs, .inl ⟨_, _, checked (by decide) (by decide) (by decide), rfl⟩⟩
  · exact ⟨s, .inl rfl, hs, .inl ⟨_, _, checked (by decide) (by decide) (by decide), rfl⟩⟩
  · exact ⟨s, .inl rfl, hs, .inl ⟨_, _, checked (by decide) (by decide) (by decide), rfl⟩⟩
  · exact ⟨s, .inl rfl, hs, .inr ⟨_, notReady_mem_takesFaults hi, rfl⟩⟩
  · have hends := steps_ends i s
    refine ⟨_, .inr rfl, steps_sameBut i s, ?_⟩
    cases hrun : steps i s with
    | ok v u =>
      rw [hrun] at hends
      cases hends with
      | value _ hv => exact .inl ⟨.ok, v, ⟨.inl (by decide), by decide, fun hne => absurd rfl hne, fun _ => hv⟩, rfl⟩
    | error e u =>
      rw [hrun] at hends
      cases hends with
      | stop _ he =>
        cases e with
        | raise c =>
          obtain ⟨hok, hlegal⟩ := furtherCodes_ne he
          exact .inl ⟨c, .absent, ⟨.inr he, hlegal, fun _ => rfl, fun hc => absurd hc hok⟩, rfl⟩
        | fault f => exact .inr ⟨f, he, rfl⟩

/-- A command writes the registers of its own steps and the fault state. -/
theorem exec_sameBut {i : Instr} {s t : State} (h : exec i s = .next t) :
    SameBut (writes i) { s with fault := t.fault, faultCause := t.faultCause } t := by
  obtain ⟨u, -, hsu, ht⟩ := exec_answers h
  rw [sameBut_iff] at *
  obtain ⟨c, v, -, rfl⟩ | ⟨f, -, rfl⟩ := ht <;> simp_all

/-- A command that takes no fault leaves the fault state. -/
theorem exec_sameBut_of_noFault {i : Instr} {s t : State} (h : exec i s = .next t) (hi : takesFaults i = []) :
    SameBut (writes i) s t := by
  obtain ⟨u, -, hsu, ⟨c, v, -, rfl⟩ | ⟨f, hf, -⟩⟩ := exec_answers h
  · exact hsu.trans (sameBut_of_sameBlock _ (sameBlock_log u _))
  · rw [hi] at hf
    cases hf

/-- A command keeps what capability calls, its writes and its faults keep. -/
theorem exec_keeps {R : State → State → Prop} (hR : CallClosed R) {i : Instr}
    (hw : ∀ s t, Written (writes i) s t → R s t) (hf : ∀ s, ∀ f ∈ takesFaults i, R s (s.enterFault f)) {s t : State}
    (h : exec i s = .next t) : R s t := by
  obtain ⟨u, hu, -, ht⟩ := exec_answers h
  have hsu : R s u := by
    obtain rfl | rfl := hu
    · exact hR.refl _
    · exact keeps_steps hR i hw s
  obtain ⟨c, v, -, rfl⟩ | ⟨f, hf', rfl⟩ := ht
  · exact hR.trans _ _ _ hsu (hR.log u _)
  · exact hR.trans _ _ _ hsu (hf u f hf')

/-- Settles O15: an answer of the row leaves the fault bit; a fault of the row is answered FAULTED. -/
theorem responseCodesOfCommand : Obligations.ResponseCodesOfCommand := by
  intro i s t h
  obtain ⟨u, -, hsu, ⟨c, v, hans, rfl⟩ | ⟨f, hf, rfl⟩⟩ := exec_answers h
  · have hfault : u.fault = s.fault := hsu.fault
    refine ⟨c, v, List.getLast?_concat, hans.legal, hans.code, fun hs ht => ?_⟩
    rw [State.respond_fault, hfault, hs] at ht
    cases ht
  · exact ⟨.faulted, .absent, List.getLast?_concat, by decide, .inl (by decide), fun _ _ => ⟨rfl, hf⟩⟩

/-- Settles O16: a value stands beside OK alone, and has the command's shape there. -/
theorem responseValueShape : Obligations.ResponseValueShape := by
  intro i s t h
  obtain ⟨u, -, -, ⟨c, v, hans, rfl⟩ | ⟨f, -, rfl⟩⟩ := exec_answers h
  · exact ⟨c, v, List.getLast?_concat, hans.noValue, hans.value⟩
  · exact ⟨.faulted, .absent, List.getLast?_concat, fun _ => rfl, nofun⟩

end Sys2Proof.Machine
end

section
/-! What every step keeps: the parameters, each register outside its writers (10_state section 1), the sensor's constants
(20_memory section 4), and the invariant. -/

namespace Sys2Proof.Machine

/-! ### The step -/

/-- The state in which a command finds the block: its word is taken from the host's stream. -/
abbrev State.accepting (s : State) (w : Word) (rest : List Word) : State := { s with host := rest }.log (.cmd w)

/-- All a step can come to: it idles, refuses the word, or runs its command. -/
theorem step_cases {s t : State} (h : step s = .next t) :
    t = s ∨ ∃ w rest, t = (s.accepting w rest).rejectWord ∨ ∃ i, exec i (s.accepting w rest) = .next t := by
  cases hhost : s.host with
  | nil =>
    rw [step_of_noWord hhost] at h
    cases h
    exact .inl rfl
  | cons w rest =>
    refine .inr ⟨w, rest, ?_⟩
    cases hd : decode w with
    | error e =>
      rw [step_of_decode_error hhost hd] at h
      cases h
      exact .inl rfl
    | ok i => exact .inr ⟨i, (step_of_decode_ok hhost hd).symm.trans h⟩

/-- Settles O13: no command writes a parameter. -/
theorem parametersConstant : Obligations.ParametersConstant := by
  intro s t h
  obtain rfl | ⟨w, rest, rfl | ⟨i, hi⟩⟩ := step_cases h
  · rfl
  · exact State.rejectWord_params _
  · exact (exec_sameBut hi).params

theorem exec_sensorConstants {i : Instr} {s t : State} (h : exec i s = .next t) : sameSensorBut [0xF4, 0xF5] s t :=
  exec_keeps sameSensorBut_callClosed (fun _ _ hw => sameSensorBut_of_mem _ hw.mem)
    (fun _ _ _ => sameSensorBut_of_mem _ rfl) h

/-- Settles O18: a register write or a fault leaves the memory, and a capability call reaches CTRL_MEAS and CONFIG only. -/
theorem sensorConstants : Obligations.SensorConstants := by
  intro s t h
  obtain rfl | ⟨w, rest, rfl | ⟨i, hi⟩⟩ := step_cases h
  · exact sameSensorBut_refl _ _
  · exact sameSensorBut_of_mem _ (State.rejectWord_mem _)
  · show sameSensorBut _ (s.accepting w rest) t
    exact exec_sensorConstants hi

/-! ### The writers of each register -/

/-- Settles O17: a register that the command does not write is the same, and the table `writes` names the writers. -/
theorem registerWriters : Obligations.RegisterWriters := by
  intro i s t h
  obtain ⟨hlife, hmode, haddr, hcal, hcalV, htf, htfV, hbudget, hpstate, -⟩ := (sameBut_iff _ _ _).mp (exec_sameBut h)
  cases i <;> simp_all [writes]

/-! ### The invariant -/

/-- What speaks of block registers alone, capability calls keep. -/
theorem callClosed_of_sameBlock {P : State → Prop} (hP : ∀ s t, sameBlock s t → P s → P t) :
    CallClosed fun s t => P s → P t where
  refl _ := id
  trans _ _ _ h1 h2 := h2 ∘ h1
  answer s := hP _ _ (sameBlock_nextAnswer s)
  log s e := hP _ _ (sameBlock_log s e)
  before s a reg n := hP _ _ (sameBlock_beforeRead s a reg n)
  accept s a bs := hP _ _ (sameBlock_acceptBytes s a bs)
  waited s ms := hP _ _ (sameBlock_waited s ms)

theorem memWf_callClosed : CallClosed fun s t => s.mem.wf → t.mem.wf where
  refl _ := id
  trans _ _ _ h1 h2 := h2 ∘ h1
  answer s h := by rwa [State.nextAnswer_mem]
  log _ _ := id
  before s a reg n := s.wf_beforeRead a reg n
  accept s a bs := s.wf_acceptBytes a bs
  waited s ms h := by rwa [State.waited_mem]

theorem exec_keeps_memWf {i : Instr} {s t : State} (h : exec i s = .next t) : s.mem.wf → t.mem.wf :=
  exec_keeps memWf_callClosed (fun _ _ hw hs => by rwa [hw.mem]) (fun _ _ _ => id) h

/-- The poll budget is at most its ceiling (R26). -/
abbrev State.budgetBounded (s : State) : Prop := s.pollBudget.toNat ≤ s.params.pollCeilingMs.toNat

theorem exec_keeps_budget {i : Instr} {s t : State} (h : exec i s = .next t) : s.budgetBounded → t.budgetBounded := by
  refine exec_keeps (callClosed_of_sameBlock fun s t hb hs => ?_) (fun s t hw hs => ?_) (fun _ _ _ => id) h
  · rwa [State.budgetBounded, sameBlock_pollBudget hb, sameBlock_params hb]
  · rw [State.budgetBounded, hw.sameBut.params]
    obtain harmed | hle := hw.budget
    · rw [harmed]
    · exact hle.trans hs

/-- The fault bit and its cause agree (R28, R139). -/
abbrev State.faultAgrees (s : State) : Prop := s.fault = true ↔ s.faultCause ≠ .none

theorem exec_keeps_faultAgrees {i : Instr} {s t : State} (h : exec i s = .next t) (hs : s.faultAgrees) :
    t.faultAgrees := by
  obtain ⟨u, -, hsu, ⟨c, v, -, rfl⟩ | ⟨f, hf, rfl⟩⟩ := exec_answers h
  · rw [State.faultAgrees, State.respond_fault, State.respond_faultCause, hsu.fault, hsu.faultCause]
    exact hs
  · exact iff_of_true rfl fun hnone => none_notMem_takesFaults i (hnone ▸ hf)

/-- A Ready state has a valid address and a valid calibration store (R21, R23). -/
abbrev State.readyValid (s : State) : Prop := s.lifecycle = .ready → s.addrValid = true ∧ s.calValid = true

theorem sameBlock_lifecycle {s t : State} (h : sameBlock s t) : t.lifecycle = s.lifecycle :=
  ((sameBlock_iff s t).mp h).1

theorem sameBlock_modeEq {s t : State} (h : sameBlock s t) : t.mode = s.mode :=
  ((sameBlock_iff s t).mp h).2.1

theorem sameBlock_addrValid {s t : State} (h : sameBlock s t) : t.addrValid = s.addrValid :=
  ((sameBlock_iff s t).mp h).2.2.1

theorem sameBlock_calValid {s t : State} (h : sameBlock s t) : t.calValid = s.calValid :=
  ((sameBlock_iff s t).mp h).2.2.2.2.1

theorem readyValid_callClosed : CallClosed fun s t => s.readyValid → t.readyValid :=
  callClosed_of_sameBlock fun s t hb hs => by
    rwa [State.readyValid, sameBlock_lifecycle hb, sameBlock_addrValid hb, sameBlock_calValid hb]

/-! #### INIT -/

/-- A result's state meets `Q` when the procedure ran to its end, and `E` when it was stopped. -/
inductive EndsAt {α : Type} (Q E : State → Prop) : EStateM.Result Stop State α → Prop
  | value (a : α) {t : State} : Q t → EndsAt Q E (.ok a t)
  | stop (e : Stop) {t : State} : E t → EndsAt Q E (.error e t)

theorem endsAt_bind {α β : Type} {Q Q' E : State → Prop} {p : Proc α} {f : α → Proc β} {s : State}
    (hp : EndsAt Q E (p s)) (hf : ∀ a t, Q t → EndsAt Q' E (f a t)) : EndsAt Q' E ((p >>= f) s) := by
  cases hrun : p s with
  | ok a t =>
    rw [hrun] at hp
    cases hp with
    | value _ hq => exact bind_run_ok hrun ▸ hf a t hq
  | error e t =>
    rw [hrun] at hp
    cases hp with
    | stop _ he => exact bind_run_error hrun ▸ .stop e he

theorem EndsAt.mono {α : Type} {Q E E' : State → Prop} {r : EStateM.Result Stop State α} (h : EndsAt Q E r)
    (hE : ∀ t, E t → E' t) : EndsAt Q E' r := by
  cases h with
  | value a hq => exact .value a hq
  | stop e he => exact .stop e (hE _ he)

/-- What a procedure keeps it keeps however it ends. -/
theorem endsAt_of_keeps {α : Type} {Q : State → Prop} {p : Proc α} (h : Keeps (fun s t => Q s → Q t) p) {s : State}
    (hs : Q s) : EndsAt Q Q (p s) := by
  have hend := h s hs
  cases hrun : p s with
  | ok a t => rw [hrun] at hend; exact .value a hend
  | error e t => rw [hrun] at hend; exact .stop e hend

/-- The state inside an INIT that has its address. -/
abbrev State.addressed (s : State) : Prop := s.lifecycle = .uninit ∧ s.addrValid = true

/-- The same with the calibration fetched. -/
abbrev State.calibrated (s : State) : Prop := s.addressed ∧ s.calValid = true

theorem uninit_callClosed : CallClosed fun s t => s.lifecycle = .uninit → t.lifecycle = .uninit :=
  callClosed_of_sameBlock fun s t hb hs => by rwa [sameBlock_lifecycle hb]

theorem addressed_callClosed : CallClosed fun s t => s.addressed → t.addressed :=
  callClosed_of_sameBlock fun s t hb hs => by
    rwa [State.addressed, sameBlock_lifecycle hb, sameBlock_addrValid hb]

theorem calibrated_callClosed : CallClosed fun s t => s.calibrated → t.calibrated :=
  callClosed_of_sameBlock fun s t hb hs => by
    rwa [State.calibrated, State.addressed, sameBlock_lifecycle hb, sameBlock_addrValid hb, sameBlock_calValid hb]

/-- CheckIdProc gives the address up with the wrong chip (R107). -/
theorem checkIdProc_endsAt {s : State} (h : s.addressed) :
    EndsAt State.addressed (fun t => t.lifecycle = .uninit) (checkIdProc s) := by
  refine endsAt_bind ((endsAt_of_keeps (keeps_memRead addressed_callClosed _ _) h).mono fun t ht => ht.1)
    fun bytes t ht => ?_
  by_cases hb : bytes.getD 0 0 ≠ 0x58#8
  · rw [if_pos hb]
    exact .stop _ rfl
  · rw [if_neg hb]
    exact .value _ ht

theorem fetchCal_endsAt {s : State} (h : s.addressed) : EndsAt State.calibrated State.addressed (fetchCal s) := by
  refine endsAt_bind (Q := State.addressed) (.value _ h) fun _ t ht => ?_
  refine endsAt_bind (endsAt_of_keeps (keeps_readCalib addressed_callClosed) ht) fun c u hu => ?_
  exact .value _ ⟨hu, rfl⟩

/-- INIT's steps leave Ready behind exactly when they run to their end, and then with a valid address and store (R110). -/
theorem initProc_endsAt (s : State) :
    EndsAt (fun t => t.lifecycle = .ready ∧ t.addrValid = true ∧ t.calValid = true) (fun t => t.lifecycle = .uninit)
      (initProc s) := by
  refine endsAt_bind (Q := fun t => t.lifecycle = .uninit) (.value _ rfl) fun _ t ht => ?_
  refine endsAt_bind (endsAt_of_keeps (keeps_ifInit uninit_callClosed) ht) fun _ t ht => ?_
  refine endsAt_bind (Q := State.addressed) (.value _ ⟨ht, rfl⟩) fun _ t ht => ?_
  refine endsAt_bind (checkIdProc_endsAt ht) fun _ t ht => ?_
  refine endsAt_bind ((endsAt_of_keeps (keeps_softReset addressed_callClosed fun _ _ => id) ht).mono fun _ => And.left)
    fun _ t ht => ?_
  refine endsAt_bind (Q := State.addressed) (.value t ht) fun r t ht => ?_
  refine endsAt_bind ((endsAt_of_keeps (keeps_delay addressed_callClosed _) ht).mono fun _ => And.left) fun _ t ht => ?_
  refine endsAt_bind ((fetchCal_endsAt ht).mono fun _ => And.left) fun _ t ht => ?_
  refine endsAt_bind
    ((endsAt_of_keeps (keeps_configureAllProc calibrated_callClosed (fun _ _ => id) _ _ _ _ _) ht).mono fun _ h => h.1.1)
    fun _ t ht => ?_
  exact .value _ ⟨rfl, ht.1.2, ht.2⟩

theorem steps_init_endsAt (s : State) :
    EndsAt (fun t => t.lifecycle = .ready ∧ t.addrValid = true ∧ t.calValid = true) (fun t => t.lifecycle = .uninit)
      (steps .init s) :=
  endsAt_bind (initProc_endsAt s) fun _ _ ht => .value _ ht

/-- What speaks of registers other than the fault state, the answer leaves as the steps left it. -/
theorem conclude_of_endState {P : State → Prop} (hr : ∀ s c v, P s → P (s.respond c v))
    (hf : ∀ s f, P s → P (s.enterFault f)) {r : EStateM.Result Stop State RspVal} (h : P (endState r)) :
    P (conclude r) := by
  cases r with
  | ok v t => exact hr t _ _ h
  | error e t =>
    cases e with
    | raise c => exact hr t _ _ h
    | fault f => exact hf t _ h

/-- DEINIT gives Ready up before its first call (R111). -/
theorem steps_deinit_uninit (s : State) : (endState (steps .deinit s)).lifecycle = .uninit :=
  keeps_bind (R := fun s t => s.lifecycle = .uninit → t.lifecycle = .uninit) uninit_callClosed
    (keeps_softReset uninit_callClosed fun _ _ => id)
    (fun _ => keeps_bind uninit_callClosed (keeps_ifDeinit uninit_callClosed) fun _ => keeps_pure uninit_callClosed _)
    { s with lifecycle := .uninit } rfl

/-- A command's own steps keep `readyValid`. -/
theorem steps_keeps_readyValid (i : Instr) {s : State} (hs : s.readyValid) : (endState (steps i s)).readyValid := by
  by_cases hinit : i = .init
  · subst hinit
    have hends := steps_init_endsAt s
    cases hrun : steps .init s with
    | ok v t =>
      rw [hrun] at hends
      cases hends with
      | value _ hv => exact fun _ => hv.2
    | error e t =>
      rw [hrun] at hends
      cases hends with
      | stop _ hu => exact fun hr => absurd (hu.symm.trans hr) (by decide)
  by_cases hdeinit : i = .deinit
  · subst hdeinit
    exact fun hr => absurd ((steps_deinit_uninit s).symm.trans hr) (by decide)
  by_cases hcheck : i = .checkId
  · subst hcheck
    exact keeps_bind readyValid_callClosed (keeps_checkIdProc readyValid_callClosed fun _ _ => nofun)
      (fun _ => keeps_pure readyValid_callClosed _) s hs
  · obtain ⟨hlife, -, haddr, -, hcal, -⟩ := (sameBut_iff _ _ _).mp (steps_sameBut i s)
    have hwrites : .lifecycle ∉ writes i ∧ .addrValid ∉ writes i ∧ .calValid ∉ writes i := by
      cases i <;> simp_all [writes]
    obtain ⟨hlife', haddr', hcal'⟩ := hwrites
    rwa [State.readyValid, hlife hlife', haddr haddr', hcal hcal']

theorem exec_keeps_readyValid {i : Instr} {s t : State} (h : exec i s = .next t) (hs : s.readyValid) : t.readyValid := by
  obtain ⟨u, hu, -, ht⟩ := exec_answers h
  have hvalid : u.readyValid := by
    obtain rfl | rfl := hu
    · exact hs
    · exact steps_keeps_readyValid i hs
  obtain ⟨c, v, -, rfl⟩ | ⟨f, -, rfl⟩ := ht <;> exact hvalid

/-! #### Every step -/

/-- Settles O11: each of the four parts is kept by every command, and taking or refusing a word touches none of them. -/
theorem invariantKept : Obligations.InvariantKept := by
  intro s t hs h
  obtain rfl | ⟨w, rest, rfl | ⟨i, hi⟩⟩ := step_cases h
  · exact hs
  · obtain ⟨hwf, hready, hfault, hbudget⟩ := hs
    exact ⟨by simpa using hwf, by simpa using hready, by simpa using hfault, by simpa using hbudget⟩
  · obtain ⟨hwf, hready, hfault, hbudget⟩ := hs
    exact ⟨exec_keeps_memWf hi hwf, exec_keeps_readyValid hi hready, exec_keeps_faultAgrees hi hfault,
      exec_keeps_budget hi hbudget⟩

/-- Settles O39: INIT's steps end in OK with Ready written last, or in a stop before that. -/
theorem initReadyExactlyWhenOk : Obligations.InitReadyExactlyWhenOk := by
  intro s t hs h
  rw [exec_init_serving hs] at h
  cases h
  have hends := steps_init_endsAt s
  have hanswer := steps_ends .init s
  cases hrun : steps .init s with
  | ok v t =>
    rw [hrun] at hends hanswer
    cases hends with
    | value _ hready =>
      cases hanswer with
      | value _ hv =>
        cases hv
        exact iff_of_true hready.1 List.getLast?_concat
  | error e t =>
    rw [hrun] at hends hanswer
    cases hends with
    | stop _ huninit =>
      cases hanswer with
      | stop _ hstop =>
        cases e with
        | fault f => cases hstop
        | raise c =>
          refine iff_of_false (fun hr => absurd (huninit.symm.trans hr) (by decide)) fun hlast => ?_
          rw [conclude_raise, State.respond_trace, List.getLast?_concat] at hlast
          cases hlast
          exact (furtherCodes_ne hstop).1 rfl

end Sys2Proof.Machine
end

section
/-! What each command leaves unchanged, whatever it answers: the registers by the table of writers, the sensor's bytes by the
addresses that the command's calls reach. -/

namespace Sys2Proof.Machine

/-! ### The sensor's bytes after each call -/

theorem sameSensorBut_congr {l : List Nat} {s t u : State} (h : sameSensorBut l s u) (hm : t.mem = u.mem) :
    sameSensorBut l s t := fun a ha => (State.sensorByte_congr u t hm a).trans (h a ha)

section
variable {l : List Nat}

/-- A read reaches CTRL_MEAS at most, and no byte at all if it does not cover 0xF4 (R51). -/
theorem sensorKept_memRead {reg : Byte} {n : Nat} (h : 0xF4 ∈ l ∨ ¬(reg.toNat ≤ 0xF4 ∧ 0xF4 < reg.toNat + n)) :
    Keeps (sameSensorBut l) (memRead reg n) := by
  intro s
  have hbefore : sameSensorBut l s (s.nextAnswer.2.beforeRead s.nextAnswer.1 reg n) := by
    refine sameSensorBut_trans (sameSensorBut_of_mem l s.nextAnswer_mem) fun a ha => ?_
    obtain hl | hquiet := h
    · exact State.sensorByte_beforeRead_other _ _ reg n a fun ha' => ha (ha' ▸ hl)
    · exact State.sensorByte_beforeRead_quiet _ _ reg n a (.inr hquiet)
  rw [memRead_run]
  split <;> exact sameSensorBut_congr hbefore rfl

/-- A byte written to CTRL_MEAS or CONFIG reaches no other. -/
theorem sensorKept_memWrite {reg : Byte} (v : Byte) (hreg : reg = 0xF4#8 ∨ reg = 0xF5#8) (hl : reg.toNat ∈ l) :
    Keeps (sameSensorBut l) (memWrite reg [v]) := by
  intro s
  have haccept : sameSensorBut l s (s.nextAnswer.2.acceptBytes reg.toNat [v]) := by
    rw [State.acceptBytes_config _ _ _ hreg]
    exact sameSensorBut_trans (sameSensorBut_of_mem l s.nextAnswer_mem) fun a ha =>
      State.sensorByte_setSensorByte_other _ _ _ _ fun ha' => ha (ha' ▸ hl)
  rw [memWrite_run]
  split
  · exact sameSensorBut_congr haccept rfl
  · split
    · exact sameSensorBut_congr haccept rfl
    · exact sameSensorBut_of_mem l (by simp [endState])

theorem sensorKept_delay (ms : U32) : Keeps (sameSensorBut l) (delay ms) := by
  intro s
  rw [delay_run]
  split <;> exact sameSensorBut_of_mem l (by simp [endState])

theorem sensorKept_power (x y : Rat) : Keeps (sameSensorBut l) (power x y) := by
  intro s
  rw [power_run]
  split <;> exact sameSensorBut_of_mem l (by simp [endState])

theorem sensorKept_pure {α : Type} (a : α) : Keeps (sameSensorBut l) (pure a : Proc α) := fun s => sameSensorBut_refl l s

theorem sensorKept_bind {α β : Type} {p : Proc α} {f : α → Proc β} (hp : Keeps (sameSensorBut l) p)
    (hf : ∀ a, Keeps (sameSensorBut l) (f a)) : Keeps (sameSensorBut l) (p >>= f) := by
  intro s
  have h := hp s
  cases hrun : p s with
  | ok a t =>
    rw [hrun] at h
    exact bind_run_ok hrun ▸ sameSensorBut_trans h (hf a t)
  | error e t =>
    rw [hrun] at h
    exact bind_run_error hrun ▸ h

/-! ### The procedures -/

theorem sensorKept_codecGet {reg : Byte} (start width : Nat) (h : 0xF4 ∈ l ∨ reg ≠ 0xF4#8) :
    Keeps (sameSensorBut l) (codecGet reg start width) := by
  refine sensorKept_bind (sensorKept_memRead (h.imp_right fun hreg => ?_)) fun _ => sensorKept_pure _
  have hne : reg.toNat ≠ 0xF4 := fun h4 => hreg (BitVec.eq_of_toNat_eq h4)
  omega

theorem sensorKept_codecSet {reg : Byte} (value : Byte) (start width : Nat) (hreg : reg = 0xF4#8 ∨ reg = 0xF5#8)
    (hl : reg.toNat ∈ l) : Keeps (sameSensorBut l) (codecSet reg value start width) := by
  refine sensorKept_bind (sensorKept_memRead ?_) fun _ => sensorKept_memWrite _ hreg hl
  obtain rfl | rfl := hreg
  · exact .inl hl
  · exact .inr (by decide)

theorem sensorKept_setModeProc (hl : 0xF4 ∈ l) (m : Mode) : Keeps (sameSensorBut l) (setModeProc m) :=
  sensorKept_bind (sensorKept_codecSet _ 0 2 (.inl rfl) hl) fun _ s => sameSensorBut_refl l s

theorem sensorKept_setSleepOnly (hl : 0xF4 ∈ l) (start : Nat) (code : BitVec 3) :
    Keeps (sameSensorBut l) (setSleepOnly 0xF4#8 start code) := fun s =>
  sensorKept_bind (sensorKept_setModeProc hl .sleep) (fun _ => sensorKept_bind
    (sensorKept_codecSet _ start 3 (.inl rfl) hl) fun _ => sensorKept_setModeProc hl s.mode) s

theorem sensorKept_pollLoop (n : Nat) : Keeps (sameSensorBut l) (pollLoop n) := by
  induction n with
  | zero => exact fun s => sameSensorBut_refl l s
  | succ n ih =>
    refine sensorKept_bind (sensorKept_codecGet 3 1 (.inr (by decide))) fun m => keeps_get_bind fun s => ?_
    by_cases hm : m = 0#8
    · rw [if_pos hm]
      exact sameSensorBut_refl l s
    rw [if_neg hm]
    by_cases hb : s.pollBudget.ult s.params.pollPeriod.ms
    · rw [if_pos hb]
      exact sameSensorBut_refl l s
    · rw [if_neg hb]
      exact sensorKept_bind (sensorKept_delay _) (fun _ => ih) s.spendPeriod

/-- A fetch reads STATUS and one burst, neither of which reaches CTRL_MEAS. -/
theorem sensorKept_fetchRaw {base : Byte} (h : 0xF6 ≤ base.toNat) : Keeps (sameSensorBut l) (fetchRaw base) := by
  have hpoll : Keeps (sameSensorBut l) poll := fun s => by
    rw [poll_run]
    exact sensorKept_pollLoop _ { s with pstate := .measuring }
  exact sensorKept_bind (fun s => sameSensorBut_refl l s) fun _ => sensorKept_bind hpoll fun _ =>
    sensorKept_bind (sensorKept_memRead (.inr (by omega))) fun _ => sensorKept_pure _

theorem sensorKept_compT (adc : U20) : Keeps (sameSensorBut l) (compT adc) := fun s => by
  rw [compT_run]
  exact sameSensorBut_of_mem l rfl

theorem sensorKept_requireTFine : Keeps (sameSensorBut l) requireTFine := fun s => by
  rw [requireTFine_run]
  split <;> exact sameSensorBut_refl l s

theorem sensorKept_compP (adc : U20) : Keeps (sameSensorBut l) (compP adc) :=
  sensorKept_bind sensorKept_requireTFine fun _ => keeps_get_bind fun s => sameSensorBut_refl l s

theorem sensorKept_altQuick (p : U32) : Keeps (sameSensorBut l) (altQuick p) :=
  sensorKept_bind (sensorKept_power _ _) fun _ => sensorKept_pure _

theorem sensorKept_checkIdProc : Keeps (sameSensorBut l) checkIdProc := by
  refine sensorKept_bind (sensorKept_memRead (.inr (by decide))) fun bytes => ?_
  by_cases hb : bytes.getD 0 0 ≠ 0x58#8
  · rw [if_pos hb]
    exact fun s => sameSensorBut_of_mem l rfl
  · rw [if_neg hb]
    exact sensorKept_pure _

end

/-- GET_ALL stores to the sensor in Forced mode alone (R128). -/
theorem retrigger_sensor (s : State) :
    sameSensorBut (if s.mode = .forced then [0xF4] else []) s (endState (retrigger s)) := by
  rw [retrigger, bind_run_ok (get_run s)]
  by_cases hm : s.mode = .forced
  · rw [if_pos hm, if_pos hm]
    exact sensorKept_codecSet _ 0 2 (.inl rfl) (by decide) s
  · rw [if_neg hm, if_neg hm]
    exact sameSensorBut_refl [] s

/-! ### A command that only reads -/

/-- The environment changes CTRL_MEAS before a read by a Forced return alone (R51). -/
theorem sameOrReturned_completeForced (s : State) : sameOrReturned s s.completeForced := by
  unfold State.completeForced
  split
  case h_2 => exact .inl rfl
  case h_1 b hb =>
    split
    case isFalse => exact .inl rfl
    case isTrue hforced => exact .inr ⟨b, hb, hforced, State.sensorByte_setSensorByte_same _ _ _ (by decide)⟩

theorem sameOrReturned_congr {s t s' t' : State} (h : sameOrReturned s t) (hs : s'.mem = s.mem) (ht : t'.mem = t.mem) :
    sameOrReturned s' t' := by
  rw [sameOrReturned, State.sensorByte_congr s s' hs, State.sensorByte_congr t t' ht]
  exact h

theorem sameOrReturned_beforeRead (s : State) (a : Answer) (reg : Byte) (n : Nat) :
    sameOrReturned s (s.beforeRead a reg n) := by
  unfold State.beforeRead
  dsimp only
  split
  · refine sameOrReturned_congr (sameOrReturned_completeForced _) ?_ rfl
    split <;> rfl
  · refine .inl (State.sensorByte_congr s _ ?_ _)
    split <;> rfl

/-- A register read stores nothing. -/
theorem codecGet_sameOrReturned (reg : Byte) (start width : Nat) (s : State) :
    sameOrReturned s (endState (codecGet reg start width s)) := by
  have hbefore := sameOrReturned_beforeRead s.nextAnswer.2 s.nextAnswer.1 reg 1
  rw [codecGet, bind_run, memRead_run]
  by_cases hok : s.nextAnswer.1.ok = true
  · rw [if_pos hok]
    exact sameOrReturned_congr hbefore s.nextAnswer_mem.symm rfl
  · rw [if_neg hok]
    exact sameOrReturned_congr hbefore s.nextAnswer_mem.symm rfl

/-- What follows the read in a getter makes no call and writes nothing. -/
def Silent {α : Type} (p : Proc α) : Prop := ∀ s, endState (p s) = s

theorem silent_pure {α : Type} (a : α) : Silent (pure a : Proc α) := fun _ => rfl

theorem silent_raise {α : Type} (c : RspCode) : Silent (raise c : Proc α) := fun _ => rfl

theorem silent_answerMode (f : Byte) : Silent (answerMode f) := by
  intro s
  unfold answerMode
  by_cases hf : f.setWidth 2 = 0b10#2
  · rw [if_pos hf, bind_run_ok (get_run s)]
    cases s.params.mode10Decode <;> rfl
  · rw [if_neg hf]
    rfl

/-- A register read with a silent continuation ends where the read does. -/
theorem endState_codecGet_bind {α : Type} (reg : Byte) (start width : Nat) {f : Byte → Proc α} (hf : ∀ b, Silent (f b))
    (s : State) : endState ((codecGet reg start width >>= f) s) = endState (codecGet reg start width s) := by
  cases hrun : codecGet reg start width s with
  | ok b t => rw [bind_run_ok hrun, hf b t]; rfl
  | error e t => rw [bind_run_error hrun]; rfl

/-- What a getter of a 3-bit field answers to the field `f` (R120). -/
def answerCode (valid : BitVec 3 → Bool) (f : Byte) : Proc RspVal :=
  if valid (f.setWidth 3) then return .code (f.setWidth 3) else raise .unknownModeOrFilter

theorem readCode_eq (reg : Byte) (start : Nat) (valid : BitVec 3 → Bool) :
    readCode reg start valid = codecGet reg start 3 >>= answerCode valid := rfl

theorem silent_answerCode (valid : BitVec 3 → Bool) (f : Byte) : Silent (answerCode valid f) := by
  unfold answerCode
  cases valid (f.setWidth 3) with
  | true => exact silent_pure _
  | false => exact silent_raise _

theorem endState_readCode (reg : Byte) (start : Nat) (valid : BitVec 3 → Bool) (s : State) :
    endState (readCode reg start valid s) = endState (codecGet reg start 3 s) :=
  endState_codecGet_bind reg start 3 (silent_answerCode valid) s

/-- The getters and GET_FIELD are one register read and what is made of its byte. -/
theorem endState_getter {i : Instr} (h : (∃ reg start width, i = .getField reg start width) ∨ i = .getMode ∨
      i = .getOsrsP ∨ i = .getOsrsT ∨ i = .getStandby ∨ i = .getFilter) :
    ∃ reg start width, ∀ s, endState (steps i s) = endState (codecGet reg start width s) := by
  obtain ⟨reg, start, width, rfl⟩ | rfl | rfl | rfl | rfl | rfl := h
  · exact ⟨reg, _, _, endState_codecGet_bind reg _ _ fun _ => silent_pure _⟩
  · exact ⟨_, _, _, endState_codecGet_bind 0xF4#8 0 2 silent_answerMode⟩
  · exact ⟨0xF4#8, 2, 3, fun s => by rw [steps, endState_readCode]⟩
  · exact ⟨0xF4#8, 5, 3, fun s => by rw [steps, endState_readCode]⟩
  · exact ⟨0xF5#8, 5, 3, fun s => by rw [steps, endState_readCode]⟩
  · exact ⟨0xF5#8, 2, 3, fun s => by rw [steps, endState_readCode]⟩

/-! ### Commands -/

/-- The answer leaves the sensor as the checks found it or as the steps left it. -/
theorem exec_mem {i : Instr} {s t : State} (h : exec i s = .next t) :
    t.mem = s.mem ∨ t.mem = (endState (steps i s)).mem := by
  obtain ⟨u, hu, -, ht⟩ := exec_answers h
  have hmem : t.mem = u.mem := by obtain ⟨c, v, -, rfl⟩ | ⟨f, -, rfl⟩ := ht <;> rfl
  rw [hmem]
  exact hu.imp (congrArg State.mem) (congrArg State.mem)

theorem exec_sensor {l : List Nat} {i : Instr} {s t : State} (h : exec i s = .next t)
    (hsteps : sameSensorBut l s (endState (steps i s))) : sameSensorBut l s t :=
  (exec_mem h).elim (sameSensorBut_of_mem l) (sameSensorBut_congr hsteps)

/-- The frame of the commands that only read one register. -/
theorem getter_frame {i : Instr} {s t : State} (hi : (∃ reg start width, i = .getField reg start width) ∨ i = .getMode ∨
      i = .getOsrsP ∨ i = .getOsrsT ∨ i = .getStandby ∨ i = .getFilter) (h : exec i s = .next t) :
    sameBlock { s with fault := t.fault, faultCause := t.faultCause } t ∧ sameSensorBut [0xF4] s t ∧
      sameOrReturned s t := by
  obtain ⟨reg, start, width, hend⟩ := endState_getter hi
  refine ⟨?_, exec_sensor h ?_, ?_⟩
  · have hblock := exec_sameBut h
    obtain ⟨reg, start, width, rfl⟩ | rfl | rfl | rfl | rfl | rfl := hi <;> exact hblock
  · rw [hend]
    exact sensorKept_codecGet start width (.inl (by decide)) s
  · obtain hm | hm := exec_mem h
    · exact .inl (State.sensorByte_congr s t hm _)
    · rw [hend] at hm
      exact sameOrReturned_congr (codecGet_sameOrReturned reg start width s) rfl hm

/-- R78's registers. -/
theorem setField_target {reg : Byte} {start : BitVec 3} {width : BitVec 4} {value : Byte}
    (h : (Instr.setField reg start width value).wf = true) : reg = 0xF4#8 ∨ reg = 0xF5#8 := by
  simp only [Instr.wf, targetLegal, Bool.and_eq_true, Bool.or_eq_true, beq_iff_eq] at h
  obtain ⟨⟨-, hreg⟩, -⟩ := h
  exact hreg

/-- Settles O31: SET_FIELD's two calls reach its register alone, and GET_FIELD only reads. -/
theorem fieldAccessFrame : Obligations.FieldAccessFrame := by
  refine ⟨fun s t reg start width value hwf h => ⟨exec_sameBut h, exec_sensor h ?_⟩, fun s t reg start width h =>
    getter_frame (.inl ⟨reg, start, width, rfl⟩) h⟩
  have hreg := setField_target hwf
  by_cases hm : s.mode = .sleep
  · rw [steps_setField_sleep reg start width value hm]
    exact sensorKept_bind (sensorKept_codecSet value _ _ hreg (by simp)) (fun _ => sensorKept_pure _) s
  · rw [steps_setField_notSleep reg start width value hm]
    exact sameSensorBut_refl _ s

/-- Settles O46: a getter is one register read. -/
theorem gettersFrame : Obligations.GettersFrame := fun _ _ _ hi h => getter_frame (.inr hi) h

/-- Settles O47: the setters write MODE alone; those of CTRL_MEAS reach no other byte. -/
theorem settersFrame : Obligations.SettersFrame := by
  intro i s t hi h
  refine ⟨?_, exec_sensorConstants h, fun hctrl => exec_sensor h ?_⟩
  · have hblock := exec_sameBut h
    obtain ⟨m, rfl⟩ | ⟨reg, start, code, ⟨c, rfl, -⟩ | ⟨c, rfl, -⟩ | ⟨c, rfl, -⟩ | ⟨c, rfl, -⟩⟩ |
      ⟨op, ot, sb, fl, md, rfl⟩ := hi <;> exact hblock
  · obtain ⟨m, rfl⟩ | ⟨c, rfl⟩ | ⟨c, rfl⟩ := hctrl
    · exact sensorKept_bind (sensorKept_setModeProc (by decide) m) (fun _ => sensorKept_pure _) s
    · exact sensorKept_bind (sensorKept_setSleepOnly (by decide) 2 c.code) (fun _ => sensorKept_pure _) s
    · exact sensorKept_bind (sensorKept_setSleepOnly (by decide) 5 c.code) (fun _ => sensorKept_pure _) s

/-- Settles O48: the registers are those of the table of writers, INIT takes no fault, and CHECK_ID only reads. -/
theorem lifecycleFrame : Obligations.LifecycleFrame := by
  refine ⟨fun s t h => ⟨exec_sameBut_of_noFault h rfl, exec_sensorConstants h⟩, fun s t h =>
    ⟨exec_sameBut h, exec_sensorConstants h⟩, fun s t h => ⟨exec_sameBut h, exec_sensor h ?_⟩, fun s t h =>
    ⟨exec_sameBut h, exec_sensorConstants h⟩⟩
  exact sensorKept_bind sensorKept_checkIdProc (fun _ => sensorKept_pure _) s

theorem exec_compT_frame {s t : State} {adc : U20} (h : exec (.compT adc) s = .next t) :
    t = { s with
      tFine := t.tFine, tFineValid := t.tFineValid, fault := t.fault, faultCause := t.faultCause, trace := t.trace } := by
  obtain ⟨u, hu, -, ht⟩ := exec_answers h
  have hrun : steps (.compT adc) s = _ := bind_run_ok (compT_run adc s)
  obtain rfl | rfl := hu
  · obtain ⟨c, v, -, rfl⟩ | ⟨f, -, rfl⟩ := ht <;> rfl
  · rw [hrun] at ht
    obtain ⟨c, v, -, rfl⟩ | ⟨f, -, rfl⟩ := ht <;> rfl

theorem silent_compP (adc : U20) : Silent (compP adc) := by
  intro s
  cases hv : s.tFineValid with
  | true => rw [compP_valid adc hv]; rfl
  | false => rw [compP_unset adc hv]; rfl

theorem exec_compP_frame {s t : State} {adc : U20} (h : exec (.compP adc) s = .next t) :
    t = { s with fault := t.fault, faultCause := t.faultCause, trace := t.trace } := by
  obtain ⟨u, hu, -, ht⟩ := exec_answers h
  have hsilent : endState (steps (.compP adc) s) = s := by
    have hend := silent_compP adc s
    cases hrun : compP adc s with
    | ok p u => rw [hrun] at hend; rw [steps, bind_run_ok hrun]; exact hend
    | error e u => rw [hrun] at hend; rw [steps, bind_run_error hrun]; exact hend
  rw [hsilent, or_self] at hu
  subst hu
  obtain ⟨c, v, -, rfl⟩ | ⟨f, -, rfl⟩ := ht <;> rfl

/-- Settles O60: a fetch reaches no byte that the sensor keeps, so GET_ALL's first step alone can store. -/
theorem measurementFrame : Obligations.MeasurementFrame := by
  have hT : 0xF6 ≤ (0xFA#8 : Byte).toNat := by decide
  have hP : 0xF6 ≤ (0xF7#8 : Byte).toNat := by decide
  refine ⟨fun s t adc => exec_compT_frame, fun s t adc => exec_compP_frame, fun s t h => ⟨exec_sameBut h,
    exec_sensor h ?_⟩, fun s t h => ⟨exec_sameBut h, exec_sensor h ?_⟩, fun s t h => ⟨exec_sameBut h, exec_sensor h ?_⟩⟩
  · exact sensorKept_bind (sensorKept_fetchRaw hT) (fun _ => sensorKept_bind (sensorKept_compT _) fun _ =>
      sensorKept_pure _) s
  · exact sensorKept_bind sensorKept_requireTFine (fun _ => sensorKept_bind (sensorKept_fetchRaw hP) fun _ =>
      sensorKept_bind (sensorKept_compP _) fun _ => sensorKept_pure _) s
  · have hrest : Keeps (sameSensorBut (if s.mode = .forced then [0xF4] else [])) (do
        let adcT ← fetchRaw 0xFA#8
        let t ← compT adcT
        let adcP ← fetchRaw 0xF7#8
        let p ← compP adcP
        return RspVal.all t p (← altQuick p)) :=
      sensorKept_bind (sensorKept_fetchRaw hT) fun _ => sensorKept_bind (sensorKept_compT _) fun _ =>
        sensorKept_bind (sensorKept_fetchRaw hP) fun _ => sensorKept_bind (sensorKept_compP _) fun _ =>
          sensorKept_bind (sensorKept_altQuick _) fun _ => sensorKept_pure _
    have hfirst := retrigger_sensor s
    rw [steps]
    cases hrun : retrigger s with
    | ok _ u =>
      rw [hrun] at hfirst
      exact bind_run_ok hrun ▸ sameSensorBut_trans hfirst (hrest u)
    | error e u =>
      rw [hrun] at hfirst
      exact bind_run_error hrun ▸ hfirst

end Sys2Proof.Machine
end

section
/-! The calls of a command (00_scope section 4, 60_exceptions section 3): how many it makes at most, that none follows a
failed one, and that a failed one decides the answer. -/

namespace Sys2Proof.Machine

/-! ### The calls of a procedure -/

/-- Capability calls that succeeded. -/
abbrev Succeeded (calls : List Event) : Prop := ∀ e ∈ calls, e.isCall = true ∧ e.failed = false

/-- From the trace `before` at most `n` calls led to the result: all succeeded, or the last one failed and the result is its
stop. -/
inductive CallsMade {α : Type} (n : Nat) (before : List Event) : EStateM.Result Stop State α → Prop
  | done {r : EStateM.Result Stop State α} {calls : List Event} (trace : (endState r).trace = before ++ calls)
    (succeeded : Succeeded calls) (bound : calls.length ≤ n) (result : ∀ t, r ≠ .error (.raise .interfaceError) t) :
    CallsMade n before r
  | failed {t : State} {calls : List Event} {e : Event} (trace : t.trace = before ++ (calls ++ [e]))
    (succeeded : Succeeded calls) (call : e.isCall = true) (fails : e.failed = true) (bound : calls.length + 1 ≤ n) :
    CallsMade n before (.error (.raise .interfaceError) t)

theorem CallsMade.mono {α : Type} {m n : Nat} {before : List Event} {r : EStateM.Result Stop State α}
    (h : CallsMade m before r) (hmn : m ≤ n) : CallsMade n before r := by
  cases h with
  | done trace succeeded bound result => exact .done trace succeeded (bound.trans hmn) result
  | failed trace succeeded call fails bound => exact .failed trace succeeded call fails (bound.trans hmn)

/-- A count of the events bounds the calls. -/
theorem CallsMade.of_addsAtMost {α : Type} {m n : Nat} {s : State} {r : EStateM.Result Stop State α}
    (h : CallsMade m s.trace r) (hn : AddsAtMost n s (endState r)) : CallsMade n s.trace r := by
  obtain ⟨calls, htrace, hlen⟩ := hn
  cases h with
  | done trace succeeded bound result =>
    cases List.append_cancel_left (htrace.symm.trans trace)
    exact .done trace succeeded hlen result
  | failed trace succeeded call fails bound =>
    cases List.append_cancel_left (htrace.symm.trans trace)
    exact .failed trace succeeded call fails (by simpa using hlen)

/-- A procedure and then another make the calls of both, the second none where the first was stopped. -/
theorem callsMade_bind {α β : Type} {m n : Nat} {p : Proc α} {f : α → Proc β} {s : State} (hp : CallsMade m s.trace (p s))
    (hf : ∀ a t, p s = .ok a t → CallsMade n t.trace (f a t)) : CallsMade (m + n) s.trace ((p >>= f) s) := by
  cases hrun : p s with
  | error e t =>
    rw [hrun] at hp
    rw [bind_run_error hrun]
    cases hp with
    | done trace succeeded bound result =>
      exact .done trace succeeded (bound.trans (Nat.le_add_right m n)) fun u hu => result u (by cases hu; rfl)
    | failed trace succeeded call fails bound =>
      exact .failed trace succeeded call fails (bound.trans (Nat.le_add_right m n))
  | ok a t =>
    rw [hrun] at hp
    rw [bind_run_ok hrun]
    have hrest := hf a t hrun
    cases hp with
    | done trace succeeded bound result =>
      rename_i calls
      have both {calls' : List Event} (h : Succeeded calls') : Succeeded (calls ++ calls') := fun e he =>
        (List.mem_append.mp he).elim (succeeded e) (h e)
      have append {u : State} {l : List Event} (h : u.trace = t.trace ++ l) : u.trace = s.trace ++ (calls ++ l) := by
        rw [h, show t.trace = s.trace ++ calls from trace, List.append_assoc]
      generalize f a t = r at hrest ⊢
      cases hrest with
      | done trace' succeeded' bound' result' =>
        exact .done (append trace') (both succeeded') (by rw [List.length_append]; omega) result'
      | failed trace' succeeded' call fails bound' =>
        exact .failed (by rw [append trace', List.append_assoc]) (both succeeded') call fails
          (by rw [List.length_append]; omega)

/-- Every run of the procedure makes at most `n` calls, none after a failed one. -/
def MakesCalls {α : Type} (n : Nat) (p : Proc α) : Prop := ∀ s, CallsMade n s.trace (p s)

theorem MakesCalls.mono {α : Type} {m n : Nat} {p : Proc α} (h : MakesCalls m p) (hmn : m ≤ n) : MakesCalls n p :=
  fun s => (h s).mono hmn

theorem makesCalls_bind {α β : Type} {m n : Nat} {p : Proc α} {f : α → Proc β} (hp : MakesCalls m p)
    (hf : ∀ a, MakesCalls n (f a)) : MakesCalls (m + n) (p >>= f) := fun s =>
  callsMade_bind (hp s) fun a t _ => hf a t

/-! ### Steps without a call -/

theorem callsMade_none {α : Type} {s : State} {r : EStateM.Result Stop State α} (htrace : (endState r).trace = s.trace)
    (hr : ∀ t, r ≠ .error (.raise .interfaceError) t) : CallsMade 0 s.trace r :=
  .done (calls := []) (by simpa using htrace) (List.forall_mem_nil _) le_rfl hr

theorem makesCalls_pure {α : Type} (a : α) : MakesCalls 0 (pure a : Proc α) := fun _ => callsMade_none rfl (by simp)

theorem makesCalls_modify {f : State → State} (hf : ∀ s, (f s).trace = s.trace) : MakesCalls 0 (modify f : Proc PUnit) :=
  fun s => callsMade_none (hf s) (by simp)

theorem makesCalls_raise {α : Type} {c : RspCode} (hc : c ≠ .interfaceError) : MakesCalls 0 (raise c : Proc α) :=
  fun _ => callsMade_none rfl (by simp [hc])

theorem makesCalls_fault {α : Type} (f : FaultCause) : MakesCalls 0 (fault f : Proc α) := fun _ =>
  callsMade_none rfl (by simp)

theorem makesCalls_get : MakesCalls 0 (get : Proc State) := fun _ => callsMade_none rfl (by simp)

theorem callsMade_set {s u : State} (h : u.trace = s.trace) : CallsMade 0 s.trace ((set u : Proc PUnit) s) :=
  callsMade_none h (by simp)

/-- After `get` the rest is looked at in the state it got. -/
theorem makesCalls_get_bind {α : Type} {n : Nat} {f : State → Proc α} (hf : ∀ s, CallsMade n s.trace (f s s)) :
    MakesCalls n ((get : Proc State) >>= f) := hf

/-! ### One call -/

section
variable {α : Type} {s t : State} {e : Event} (htrace : t.trace = s.trace ++ [e]) (hcall : e.isCall = true)
include htrace hcall

theorem callsMade_ok (a : α) (hok : e.failed = false) : CallsMade 1 s.trace (.ok a t : EStateM.Result Stop State α) :=
  .done (calls := [e]) htrace (List.forall_mem_singleton.mpr ⟨hcall, hok⟩) le_rfl (by simp)

theorem callsMade_fail (hfail : e.failed = true) :
    CallsMade 1 s.trace (.error (.raise .interfaceError) t : EStateM.Result Stop State α) :=
  .failed (calls := []) htrace (List.forall_mem_nil _) hcall hfail le_rfl

end

theorem makesCalls_memRead (reg : Byte) (n : Nat) : MakesCalls 1 (memRead reg n) := by
  intro s
  rw [memRead_run]
  split
  · exact callsMade_ok (by simp; rfl) rfl _ rfl
  · exact callsMade_fail (by simp; rfl) rfl rfl

theorem makesCalls_memWrite (reg : Byte) (bytes : List Byte) : MakesCalls 1 (memWrite reg bytes) := by
  intro s
  rw [memWrite_run]
  split
  · exact callsMade_ok (by simp; rfl) rfl _ rfl
  · split <;> exact callsMade_fail (by simp; rfl) rfl rfl

theorem makesCalls_delay (ms : U32) : MakesCalls 1 (delay ms) := by
  intro s
  rw [delay_run]
  split
  · exact callsMade_ok (by simp; rfl) rfl _ rfl
  · exact callsMade_fail (by simp; rfl) rfl rfl

theorem makesCalls_ifInit : MakesCalls 1 ifInit := by
  intro s
  rw [ifInit_run]
  split
  · exact callsMade_ok (by simp; rfl) rfl _ rfl
  · exact callsMade_fail (by simp; rfl) rfl rfl

theorem makesCalls_ifDeinit : MakesCalls 1 ifDeinit := by
  intro s
  rw [ifDeinit_run]
  split
  · exact callsMade_ok (by simp; rfl) rfl _ rfl
  · exact callsMade_fail (by simp; rfl) rfl rfl

theorem makesCalls_power (x y : Rat) : MakesCalls 1 (power x y) := by
  intro s
  rw [power_run]
  split
  · exact callsMade_ok (by simp; rfl) rfl _ rfl
  · exact callsMade_fail (by simp; rfl) rfl rfl

/-! ### The procedures -/

theorem makesCalls_codecSet (reg value : Byte) (start width : Nat) : MakesCalls 2 (codecSet reg value start width) :=
  makesCalls_bind (makesCalls_memRead _ _) fun _ => makesCalls_memWrite _ _

theorem makesCalls_codecGet (reg : Byte) (start width : Nat) : MakesCalls 1 (codecGet reg start width) :=
  makesCalls_bind (makesCalls_memRead _ _) fun _ => makesCalls_pure _

theorem makesCalls_setModeProc (m : Mode) : MakesCalls 2 (setModeProc m) :=
  MakesCalls.mono (makesCalls_bind (makesCalls_codecSet _ _ _ _) fun _ => makesCalls_modify fun _ => rfl) le_rfl

theorem makesCalls_setSleepOnly (reg : Byte) (start : Nat) (code : BitVec 3) :
    MakesCalls 6 (setSleepOnly reg start code) :=
  makesCalls_get_bind fun s => makesCalls_bind (makesCalls_setModeProc .sleep) (fun _ =>
    makesCalls_bind (makesCalls_codecSet _ _ _ _) fun _ => makesCalls_setModeProc s.mode) s

theorem makesCalls_configureAllProc (op ot : Osrs) (sb : Standby) (fl : Filter) (md : Mode) :
    MakesCalls 26 (configureAllProc op ot sb fl md) :=
  makesCalls_bind (makesCalls_setSleepOnly _ _ _) fun _ => makesCalls_bind (makesCalls_setSleepOnly _ _ _) fun _ =>
    makesCalls_bind (makesCalls_setSleepOnly _ _ _) fun _ => makesCalls_bind (makesCalls_setSleepOnly _ _ _) fun _ =>
      makesCalls_setModeProc _

theorem makesCalls_softReset : MakesCalls 1 softReset :=
  MakesCalls.mono (makesCalls_bind (makesCalls_memWrite _ _) fun _ => makesCalls_modify fun _ => rfl) le_rfl

theorem makesCalls_checkIdProc : MakesCalls 1 checkIdProc := by
  refine MakesCalls.mono (makesCalls_bind (n := 0) (makesCalls_memRead _ _) fun bytes => ?_) le_rfl
  by_cases hb : bytes.getD 0 0 ≠ 0x58#8
  · rw [if_pos hb]
    exact MakesCalls.mono (makesCalls_bind (makesCalls_modify fun _ => rfl) fun _ => makesCalls_raise nofun) le_rfl
  · rw [if_neg hb]
    exact makesCalls_pure _

theorem makesCalls_fetchCal : MakesCalls 12 fetchCal := by
  have hword : ∀ reg, MakesCalls 1 (readCalWord reg) := fun reg =>
    makesCalls_bind (makesCalls_memRead _ _) fun _ => makesCalls_pure _
  have hwords : ∀ n, MakesCalls n (readCalWords n) := fun n => by
    induction n with
    | zero => exact makesCalls_pure _
    | succ n ih => exact makesCalls_bind ih fun _ => makesCalls_bind (hword _) fun _ => makesCalls_pure _
  have hcalib : MakesCalls 12 readCalib := by
    rw [readCalib_eq, map_eq_pure_bind]
    exact makesCalls_bind (hwords 12) fun _ => makesCalls_pure _
  exact MakesCalls.mono (makesCalls_bind (makesCalls_modify fun _ => rfl) fun _ => makesCalls_bind hcalib fun _ =>
    makesCalls_modify fun _ => rfl) le_rfl

theorem makesCalls_initProc : MakesCalls 42 initProc :=
  MakesCalls.mono (makesCalls_bind (makesCalls_modify fun _ => rfl) fun _ => makesCalls_bind makesCalls_ifInit fun _ =>
    makesCalls_bind (makesCalls_modify fun _ => rfl) fun _ => makesCalls_bind makesCalls_checkIdProc fun _ =>
    makesCalls_bind makesCalls_softReset fun _ => makesCalls_bind makesCalls_get fun _ =>
    makesCalls_bind (makesCalls_delay _) fun _ => makesCalls_bind makesCalls_fetchCal fun _ =>
    makesCalls_bind (makesCalls_configureAllProc _ _ _ _ _) fun _ => makesCalls_modify fun _ => rfl) le_rfl

theorem makesCalls_answerMode (f : Byte) : MakesCalls 0 (answerMode f) := by
  unfold answerMode
  by_cases hf : f.setWidth 2 = 0b10#2
  · rw [if_pos hf]
    refine makesCalls_get_bind fun s => ?_
    cases s.params.mode10Decode with
    | forced => exact makesCalls_pure _ s
    | unknown => exact makesCalls_raise (by decide) s
  · rw [if_neg hf]
    exact makesCalls_pure _

theorem makesCalls_readCode (reg : Byte) (start : Nat) (valid : BitVec 3 → Bool) :
    MakesCalls 1 (readCode reg start valid) := by
  refine MakesCalls.mono (makesCalls_bind (n := 0) (makesCalls_codecGet reg start 3) fun f => ?_) le_rfl
  cases valid (f.setWidth 3) with
  | true => exact makesCalls_pure _
  | false => exact makesCalls_raise (by decide)

theorem makesCalls_compT (adc : U20) : MakesCalls 0 (compT adc) := fun s => by
  rw [compT_run]
  exact callsMade_none rfl (by simp)

theorem makesCalls_requireTFine : MakesCalls 0 requireTFine := fun s => by
  rw [requireTFine_run]
  split <;> exact callsMade_none rfl (by simp)

theorem makesCalls_compP (adc : U20) : MakesCalls 0 (compP adc) :=
  makesCalls_bind makesCalls_requireTFine fun _ => makesCalls_get_bind fun s => makesCalls_pure _ s

theorem makesCalls_altQuick (p : U32) : MakesCalls 1 (altQuick p) :=
  makesCalls_bind (makesCalls_power _ _) fun _ => makesCalls_pure _

theorem makesCalls_retrigger : MakesCalls 2 retrigger := by
  refine makesCalls_get_bind fun s => ?_
  by_cases hm : s.mode = .forced
  · rw [if_pos hm]
    exact makesCalls_codecSet _ _ _ _ s
  · rw [if_neg hm]
    exact (makesCalls_pure _ s).mono (Nat.zero_le 2)

/-- The loop's own bound counts its iterations; `poll_addsAtMost` replaces it by the budget's. -/
theorem makesCalls_pollLoop (n : Nat) : MakesCalls (2 * n) (pollLoop n) := by
  induction n with
  | zero =>
    exact MakesCalls.mono (makesCalls_bind (makesCalls_modify fun _ => rfl) fun _ => makesCalls_raise nofun) le_rfl
  | succ n ih =>
    refine MakesCalls.mono (makesCalls_bind (n := 1 + 2 * n) (makesCalls_codecGet 0xF3#8 3 1) fun m =>
      makesCalls_get_bind fun s => ?_) (by omega)
    by_cases hm : m = 0#8
    · rw [if_pos hm]
      exact CallsMade.mono (callsMade_set rfl) (Nat.zero_le _)
    rw [if_neg hm]
    by_cases hb : s.pollBudget.ult s.params.pollPeriod.ms
    · rw [if_pos hb]
      exact CallsMade.mono (callsMade_bind (n := 0) (callsMade_set rfl) fun _ t _ =>
        makesCalls_raise (c := .pollTimeoutError) (by decide) t) (Nat.zero_le _)
    · rw [if_neg hb]
      exact makesCalls_bind (makesCalls_delay _) (fun _ => ih) s.spendPeriod

theorem callsMade_poll (s : State) : CallsMade (2 * s.wholePeriods + 1) s.trace (poll s) := by
  refine CallsMade.of_addsAtMost (m := 2 * (s.wholePeriods + 1)) ?_ (poll_addsAtMost s)
  rw [poll_run]
  exact makesCalls_pollLoop _ { s with pstate := .measuring }

/-- A fetch arms the budget with the ceiling, so R97's count bounds its calls. -/
theorem callsMade_fetchRaw (base : Byte) {s : State} {k : Nat} (hk : waitsPerPoll s.params = k) :
    CallsMade (2 * k + 2) s.trace (fetchRaw base s) := by
  subst hk
  rw [fetchRaw, bind_run_ok (modify_run _ s)]
  exact callsMade_bind (callsMade_poll { s with pollBudget := s.params.pollCeilingMs }) fun _ t _ =>
    makesCalls_bind (makesCalls_memRead base 3) (fun _ => makesCalls_pure _) t

/-- What a procedure leaves of the parameters is what it found. -/
theorem params_of_ok {α : Type} {p : Proc α} {W : List Register} (hp : Keeps (SameBut W) p) {s t : State} {a : α}
    (hrun : p s = .ok a t) : t.params = s.params := by
  have h := hp s
  rw [hrun] at h
  exact h.params

theorem callsMade_getTemperature (s : State) :
    CallsMade (2 * waitsPerPoll s.params + 2) s.trace (steps .getTemperature s) :=
  CallsMade.mono (callsMade_bind (callsMade_fetchRaw _ rfl) fun adc t _ =>
    makesCalls_bind (makesCalls_compT adc) (fun _ => makesCalls_pure _) t) le_rfl

theorem callsMade_getPressure (s : State) : CallsMade (2 * waitsPerPoll s.params + 2) s.trace (steps .getPressure s) := by
  refine CallsMade.mono (callsMade_bind (makesCalls_requireTFine s) fun _ t ht => ?_) (Nat.le_of_eq (Nat.zero_add _))
  have ht : t.params = s.params := params_of_ok (keeps_requireTFine (sameBut_callClosed [])) ht
  exact CallsMade.mono (callsMade_bind (callsMade_fetchRaw _ (congrArg waitsPerPoll ht)) fun adc u _ =>
    makesCalls_bind (makesCalls_compP adc) (fun _ => makesCalls_pure _) u) le_rfl

/-- GET_ALL: the retrigger, two fetches and the power call (R128, R164). -/
theorem callsMade_getAll (s : State) : CallsMade (4 * waitsPerPoll s.params + 7) s.trace (steps .getAll s) := by
  generalize hk : waitsPerPoll s.params = k
  refine CallsMade.mono (m := 2 + ((2 * k + 2) + (0 + ((2 * k + 2) + (0 + (1 + 0)))))) ?_ (by omega)
  refine callsMade_bind (makesCalls_retrigger s) fun _ t ht => ?_
  have ht : t.params = s.params := params_of_ok (keeps_retrigger (sameBut_callClosed [])) ht
  refine callsMade_bind (callsMade_fetchRaw _ (ht ▸ hk)) fun adcT u hu => ?_
  have hu : u.params = s.params := (params_of_ok (fetchRaw_sameBut _) hu).trans ht
  refine callsMade_bind (makesCalls_compT adcT u) fun c v hv => ?_
  rw [compT_run] at hv
  cases hv
  refine callsMade_bind (callsMade_fetchRaw _ (hu ▸ hk)) fun adcP w _ => ?_
  exact makesCalls_bind (makesCalls_compP adcP) (fun _ => makesCalls_bind (makesCalls_altQuick _) fun _ =>
    makesCalls_pure _) w

theorem steps_callsMade (i : Instr) (s : State) : CallsMade (callBound s.params i) s.trace (steps i s) := by
  cases i with
  | setField reg start width value =>
    by_cases hm : s.mode = .sleep
    · rw [steps_setField_sleep reg start width value hm]
      exact makesCalls_bind (makesCalls_codecSet _ _ _ _) (fun _ => makesCalls_pure _) s
    · rw [steps_setField_notSleep reg start width value hm]
      exact (makesCalls_fault (α := RspVal) .sleepOnlyActive s).mono (Nat.zero_le 2)
  | getField => exact makesCalls_bind (makesCalls_codecGet _ _ _) (fun _ => makesCalls_pure _) s
  | init => exact makesCalls_bind makesCalls_initProc (fun _ => makesCalls_pure _) s
  | deinit =>
    rw [steps, bind_run_ok (modify_run _ s)]
    exact makesCalls_bind makesCalls_softReset (fun _ => makesCalls_bind makesCalls_ifDeinit fun _ =>
      makesCalls_pure _) { s with lifecycle := .uninit }
  | checkId => exact makesCalls_bind makesCalls_checkIdProc (fun _ => makesCalls_pure _) s
  | reset => exact makesCalls_bind makesCalls_softReset (fun _ => makesCalls_pure _) s
  | setMode => exact makesCalls_bind (makesCalls_setModeProc _) (fun _ => makesCalls_pure _) s
  | setOsrsP => exact makesCalls_bind (makesCalls_setSleepOnly _ _ _) (fun _ => makesCalls_pure _) s
  | setOsrsT => exact makesCalls_bind (makesCalls_setSleepOnly _ _ _) (fun _ => makesCalls_pure _) s
  | setStandby => exact makesCalls_bind (makesCalls_setSleepOnly _ _ _) (fun _ => makesCalls_pure _) s
  | setFilter => exact makesCalls_bind (makesCalls_setSleepOnly _ _ _) (fun _ => makesCalls_pure _) s
  | configureAll => exact makesCalls_bind (makesCalls_configureAllProc _ _ _ _ _) (fun _ => makesCalls_pure _) s
  | getMode => exact makesCalls_bind (makesCalls_codecGet _ _ _) makesCalls_answerMode s
  | getOsrsP => rw [steps]; exact makesCalls_readCode _ _ _ s
  | getOsrsT => rw [steps]; exact makesCalls_readCode _ _ _ s
  | getStandby => rw [steps]; exact makesCalls_readCode _ _ _ s
  | getFilter => rw [steps]; exact makesCalls_readCode _ _ _ s
  | compT => exact makesCalls_bind (makesCalls_compT _) (fun _ => makesCalls_pure _) s
  | compP => exact makesCalls_bind (makesCalls_compP _) (fun _ => makesCalls_pure _) s
  | getTemperature => exact callsMade_getTemperature s
  | getPressure => exact callsMade_getPressure s
  | getAll => exact callsMade_getAll s

/-- What O14 claims of the answer in `t` to a command begun in `s`. -/
def OneResponse (n : Nat) (s t : State) : Prop :=
  ∃ (calls : List Event) (c : RspCode) (v : RspVal), t.trace = s.trace ++ calls ++ [.rsp c v] ∧
    (∀ e ∈ calls, e.isCall = true) ∧ calls.length ≤ n ∧ (∀ e ∈ calls.dropLast, e.failed = false) ∧
    (c = .interfaceError ↔ ∃ e, calls.getLast? = some e ∧ e.failed = true)

/-- Calls that all succeeded go with any other code than INTERFACE_ERROR. -/
theorem oneResponse_of_succeeded {n : Nat} {s t : State} {calls : List Event} {c : RspCode} {v : RspVal}
    (htrace : t.trace = s.trace ++ calls ++ [.rsp c v]) (hcalls : Succeeded calls) (hlen : calls.length ≤ n)
    (hc : c ≠ .interfaceError) : OneResponse n s t := by
  refine ⟨calls, c, v, htrace, fun e he => (hcalls e he).1, hlen, fun e he => (hcalls e (List.mem_of_mem_dropLast he)).2,
    iff_of_false hc fun ⟨e, hlast, hfailed⟩ => ?_⟩
  rw [(hcalls e (List.mem_of_getLast? hlast)).2] at hfailed
  cases hfailed

/-- A check that answers makes no call. -/
theorem oneResponse_of_check (n : Nat) {s t : State} {c : RspCode} {v : RspVal} (htrace : t.trace = s.trace ++ [.rsp c v])
    (hc : c ≠ .interfaceError) : OneResponse n s t :=
  oneResponse_of_succeeded (calls := []) (by simpa using htrace) (List.forall_mem_nil _) (Nat.zero_le n) hc

/-- The answer after the calls of a command's own steps. -/
theorem oneResponse_of_callsMade {n : Nat} {s : State} {r : EStateM.Result Stop State RspVal}
    (h : CallsMade n s.trace r) : OneResponse n s (conclude r) := by
  cases h with
  | failed trace succeeded call fails bound =>
    rename_i t calls e
    refine ⟨calls ++ [e], .interfaceError, .absent, by rw [conclude_raise, State.respond_trace, trace], ?_,
      by simpa using bound, ?_, iff_of_true rfl ⟨e, List.getLast?_concat, fails⟩⟩
    · exact fun e' he' =>
        (List.mem_append.mp he').elim (fun h => (succeeded e' h).1) fun h => List.mem_singleton.mp h ▸ call
    · rw [List.dropLast_concat]
      exact fun e' he' => (succeeded e' he').2
  | done trace succeeded bound result =>
    cases r with
    | ok v t => exact oneResponse_of_succeeded (congrArg (· ++ [_]) trace) succeeded bound (c := .ok) nofun
    | error e t =>
      cases e with
      | fault f => exact oneResponse_of_succeeded (congrArg (· ++ [_]) trace) succeeded bound (c := .faulted) nofun
      | raise c =>
        exact oneResponse_of_succeeded (congrArg (· ++ [_]) trace) succeeded bound (c := c) fun hc =>
          result t (hc ▸ rfl)

/-- Settles O14: where a check answers there is no call; else the calls are those of the command's own steps, and the stop
of a failed one is answered INTERFACE_ERROR. -/
theorem oneResponsePerCommand : Obligations.OneResponsePerCommand := by
  intro i s t h
  show OneResponse (callBound s.params i) s t
  obtain ⟨-, rfl⟩ | ⟨-, c, rfl | rfl, rfl⟩ | ⟨-, -, -, rfl⟩ | ⟨-, -, rfl⟩ := exec_cases h
  · exact oneResponse_of_check _ rfl nofun
  · exact oneResponse_of_check _ rfl nofun
  · exact oneResponse_of_check _ rfl nofun
  · exact oneResponse_of_check _ rfl nofun
  · exact oneResponse_of_callsMade (steps_callsMade i s)

end Sys2Proof.Machine
end

section
/-! What a command cannot see (10_state sections 1 and 3): two runs from states that differ in a hidden register alone stay
in step, make the same calls and give the same answer. -/

namespace Sys2Proof.Machine

/-! ### States that differ in a hidden register alone -/

/-- A register that the statements say is not seen. -/
inductive Hidden where
  /-- the poller's state -/
  | pstate
  /-- the calibration store -/
  | cal
  /-- T_FINE while `T_FINE_VALID` is 0 -/
  | tFine

/-- The two states agree in everything but the hidden register. -/
structure Agree (H : Hidden) (s s' : State) : Prop where
  lifecycle : s'.lifecycle = s.lifecycle
  mode : s'.mode = s.mode
  addrValid : s'.addrValid = s.addrValid
  cal : H ≠ .cal → s'.cal = s.cal
  calValid : s'.calValid = s.calValid
  tFine : H ≠ .tFine ∨ s.tFineValid = true → s'.tFine = s.tFine
  tFineValid : s'.tFineValid = s.tFineValid
  pollBudget : s'.pollBudget = s.pollBudget
  pstate : H ≠ .pstate → s'.pstate = s.pstate
  fault : s'.fault = s.fault
  faultCause : s'.faultCause = s.faultCause
  params : s'.params = s.params
  mem : s'.mem = s.mem
  starting : s'.starting = s.starting
  answers : s'.answers = s.answers
  freeDraws : s'.freeDraws = s.freeDraws
  host : s'.host = s.host
  trace : s'.trace = s.trace

theorem agree_withPState (s : State) (p : PState) : Agree .pstate s { s with pstate := p } := by
  constructor <;> simp

theorem agree_withCal (s : State) (c : Calib) : Agree .cal s { s with cal := c } := by
  constructor <;> simp

theorem agree_withTFine {s : State} (h : s.tFineValid = false) (v : S32) : Agree .tFine s { s with tFine := v } := by
  constructor <;> simp [h]

theorem Agree.eq_withPState {s s' : State} (h : Agree .pstate s s') : { s' with pstate := s.pstate } = s := by
  obtain ⟨h1, h2, h3, h4, h5, h6, h7, h8, -, h10, h11, h12, h13, h14, h15, h16, h17, h18⟩ := h
  cases s
  cases s'
  simp_all

theorem Agree.eq_withCal {s s' : State} (h : Agree .cal s s') : { s' with cal := s.cal } = s := by
  obtain ⟨h1, h2, h3, -, h5, h6, h7, h8, h9, h10, h11, h12, h13, h14, h15, h16, h17, h18⟩ := h
  cases s
  cases s'
  simp_all

theorem Agree.eq_withTFine {s s' : State} (h : Agree .tFine s s') : { s' with tFine := s.tFine } = s := by
  obtain ⟨h1, h2, h3, h4, h5, -, h7, h8, h9, h10, h11, h12, h13, h14, h15, h16, h17, h18⟩ := h
  cases s
  cases s'
  simp_all

/-! ### What a capability call does depends on the sensor's part of the state -/

theorem State.completeForced_mem_congr {s s' : State} (h : s'.mem = s.mem) :
    s'.completeForced.mem = s.completeForced.mem := by
  unfold State.completeForced
  rw [State.sensorByte_congr s s' h]
  split
  · split
    · simp [h]
    · exact h
  · exact h

theorem State.beforeRead_mem_congr {s s' : State} (h : s'.mem = s.mem) (a : Answer) (reg : Byte) (n : Nat) :
    (s'.beforeRead a reg n).mem = (s.beforeRead a reg n).mem := by
  have hsettled : (if a.settled then s'.settle else s').mem = (if a.settled then s.settle else s).mem := by
    split <;> exact h
  unfold State.beforeRead
  dsimp only
  split
  · exact State.completeForced_mem_congr hsettled
  · exact hsettled

theorem State.acceptBytes_congr {s s' : State} (hm : s'.mem = s.mem) (hs : s'.starting = s.starting)
    (hp : s'.params = s.params) (a : Nat) (bs : List Byte) :
    (s'.acceptBytes a bs).mem = (s.acceptBytes a bs).mem ∧
      (s'.acceptBytes a bs).starting = (s.acceptBytes a bs).starting := by
  induction bs generalizing s s' a with
  | nil => exact ⟨hm, hs⟩
  | cons b bs ih =>
    have hbyte : (s'.acceptByte a b).mem = (s.acceptByte a b).mem ∧
        (s'.acceptByte a b).starting = (s.acceptByte a b).starting := by
      unfold State.acceptByte
      split
      · simp [hm, hs]
      · split
        · simp [hm, hp]
        · exact ⟨hm, hs⟩
    exact ih hbyte.1 hbyte.2 (by simpa using hp) (a + 1)

section
variable {H : Hidden} {s s' : State} (h : Agree H s s')
include h

theorem Agree.withSensor (m : Memory) (b : Bool) :
    Agree H { s with mem := m, starting := b } { s' with mem := m, starting := b } :=
  { h with mem := rfl, starting := rfl }

theorem Agree.log (e : Event) : Agree H (s.log e) (s'.log e) := { h with trace := congrArg (· ++ [e]) h.trace }

theorem Agree.nextAnswer : s'.nextAnswer.1 = s.nextAnswer.1 ∧ Agree H s.nextAnswer.2 s'.nextAnswer.2 := by
  have hans := h.answers
  cases hs : s.answers with
  | nil =>
    rw [hs] at hans
    rw [s.nextAnswer_nil hs, s'.nextAnswer_nil hans]
    exact ⟨congrArg Config.freeAnswer h.freeDraws, { h with freeDraws := congrArg (· + 1) h.freeDraws }⟩
  | cons a rest =>
    rw [hs] at hans
    rw [s.nextAnswer_cons a rest hs, s'.nextAnswer_cons a rest hans]
    exact ⟨rfl, { h with answers := rfl }⟩

theorem Agree.beforeRead (a : Answer) (reg : Byte) (n : Nat) :
    Agree H (s.beforeRead a reg n) (s'.beforeRead a reg n) := by
  have hstart : (s'.beforeRead a reg n).starting = (s.beforeRead a reg n).starting := by
    rw [State.starting_beforeRead, State.starting_beforeRead, h.starting]
  rw [State.beforeRead_eq s, State.beforeRead_eq s', State.beforeRead_mem_congr h.mem, hstart]
  exact h.withSensor _ _

theorem Agree.acceptBytes (a : Nat) (bs : List Byte) : Agree H (s.acceptBytes a bs) (s'.acceptBytes a bs) := by
  obtain ⟨hm, hstart⟩ := State.acceptBytes_congr h.mem h.starting h.params a bs
  rw [State.acceptBytes_eq s, State.acceptBytes_eq s', hm, hstart]
  exact h.withSensor _ _

theorem Agree.waited (ms : U32) : Agree H (s.waited ms) (s'.waited ms) := by
  unfold State.waited
  rw [h.params]
  split
  · exact { h with starting := rfl }
  · exact h

theorem Agree.seenBytes (a : Answer) (reg : Byte) (n : Nat) : s'.seenBytes a reg n = s.seenBytes a reg n := by
  have hbyte : ∀ k free, s'.seenByte k free = s.seenByte k free := fun k free => by
    rw [State.seenByte, State.seenByte, State.resetReadsZero, State.resetReadsZero, State.sensorByte_congr s s' h.mem,
      h.starting, h.params]
  simp only [State.seenBytes, hbyte]

theorem Agree.respond (c : RspCode) (v : RspVal) : Agree H (s.respond c v) (s'.respond c v) := h.log _

theorem Agree.enterFault (f : FaultCause) : Agree H (s.enterFault f) (s'.enterFault f) :=
  Agree.log (s := { s with fault := true, faultCause := f }) (s' := { s' with fault := true, faultCause := f })
    { h with fault := rfl, faultCause := rfl } _

theorem Agree.withMode (m : Mode) : Agree H { s with mode := m } { s' with mode := m } := { h with mode := rfl }

theorem Agree.withPState (p : PState) : Agree H { s with pstate := p } { s' with pstate := p } :=
  { h with pstate := fun _ => rfl }

end

/-! ### Runs in step -/

/-- Two results that differ in the hidden register alone. -/
inductive AgreeIn {α : Type} (H : Hidden) : EStateM.Result Stop State α → EStateM.Result Stop State α → Prop
  | ok (a : α) {t t' : State} : Agree H t t' → AgreeIn H (.ok a t) (.ok a t')
  | error (e : Stop) {t t' : State} : Agree H t t' → AgreeIn H (.error e t) (.error e t')

/-- The procedure does not see the hidden register. -/
def Blind {α : Type} (H : Hidden) (p : Proc α) : Prop := ∀ s s', Agree H s s' → AgreeIn H (p s) (p s')

section
variable {H : Hidden} {α β : Type}

theorem blind_pure (a : α) : Blind H (pure a : Proc α) := fun _ _ h => .ok a h

theorem blind_raise (c : RspCode) : Blind H (raise c : Proc α) := fun _ _ h => .error _ h

theorem blind_modify {f : State → State} (hf : ∀ s s', Agree H s s' → Agree H (f s) (f s')) :
    Blind H (modify f : Proc PUnit) := fun s s' h => .ok _ (hf s s' h)

theorem blind_bind {p : Proc α} {f : α → Proc β} (hp : Blind H p) (hf : ∀ a, Blind H (f a)) : Blind H (p >>= f) := by
  intro s s' h
  have hr := hp s s' h
  rw [bind_run, bind_run]
  generalize p s = r, p s' = r' at hr ⊢
  cases hr with
  | ok a ht => exact hf a _ _ ht
  | error e ht => exact .error e ht

/-- After `get` the two runs go on with what each of them got. -/
theorem blind_get_bind {f : State → Proc β} (hf : ∀ s s', Agree H s s' → AgreeIn H (f s s) (f s' s')) :
    Blind H ((get : Proc State) >>= f) := hf

end

section
variable {H : Hidden}

theorem blind_memRead (reg : Byte) (n : Nat) : Blind H (memRead reg n) := by
  intro s s' h
  obtain ⟨ha, hnext⟩ := h.nextAnswer
  have hbefore := hnext.beforeRead s.nextAnswer.1 reg n
  rw [memRead_run, memRead_run, ha, hbefore.seenBytes]
  split
  · exact .ok _ (hbefore.log _)
  · exact .error _ (hbefore.log _)

theorem blind_memWrite (reg : Byte) (bytes : List Byte) : Blind H (memWrite reg bytes) := by
  intro s s' h
  obtain ⟨ha, hnext⟩ := h.nextAnswer
  rw [memWrite_run, memWrite_run, ha]
  split
  · exact .ok _ ((hnext.acceptBytes _ _).log _)
  · split
    · exact .error _ ((hnext.acceptBytes _ _).log _)
    · exact .error _ (hnext.log _)

theorem blind_delay (ms : U32) : Blind H (delay ms) := by
  intro s s' h
  obtain ⟨ha, hnext⟩ := h.nextAnswer
  rw [delay_run, delay_run, ha]
  split
  · exact .ok _ ((hnext.log _).waited ms)
  · exact .error _ (hnext.log _)

theorem blind_ifInit : Blind H ifInit := by
  intro s s' h
  obtain ⟨ha, hnext⟩ := h.nextAnswer
  rw [ifInit_run, ifInit_run, ha]
  split
  · exact .ok _ (hnext.log _)
  · exact .error _ (hnext.log _)

theorem blind_ifDeinit : Blind H ifDeinit := by
  intro s s' h
  obtain ⟨ha, hnext⟩ := h.nextAnswer
  rw [ifDeinit_run, ifDeinit_run, ha]
  split
  · exact .ok _ (hnext.log _)
  · exact .error _ (hnext.log _)

theorem blind_power (x y : Rat) : Blind H (power x y) := by
  intro s s' h
  obtain ⟨ha, hnext⟩ := h.nextAnswer
  rw [power_run, power_run, ha]
  split
  · exact .ok _ (hnext.log _)
  · exact .error _ (hnext.log _)

/-! ### The procedures -/

theorem blind_codecSet (reg value : Byte) (start width : Nat) : Blind H (codecSet reg value start width) :=
  blind_bind (blind_memRead _ _) fun _ => blind_memWrite _ _

theorem blind_codecGet (reg : Byte) (start width : Nat) : Blind H (codecGet reg start width) :=
  blind_bind (blind_memRead _ _) fun _ => blind_pure _

theorem blind_setModeProc (m : Mode) : Blind H (setModeProc m) :=
  blind_bind (blind_codecSet _ _ _ _) fun _ => blind_modify fun _ _ h => h.withMode m

theorem blind_setSleepOnly (reg : Byte) (start : Nat) (code : BitVec 3) : Blind H (setSleepOnly reg start code) :=
  blind_get_bind fun s s' h => by
    rw [h.mode]
    exact blind_bind (blind_setModeProc .sleep) (fun _ => blind_bind (blind_codecSet _ _ _ _) fun _ =>
      blind_setModeProc s.mode) s s' h

theorem blind_configureAllProc (op ot : Osrs) (sb : Standby) (fl : Filter) (md : Mode) :
    Blind H (configureAllProc op ot sb fl md) :=
  blind_bind (blind_setSleepOnly _ _ _) fun _ => blind_bind (blind_setSleepOnly _ _ _) fun _ =>
    blind_bind (blind_setSleepOnly _ _ _) fun _ => blind_bind (blind_setSleepOnly _ _ _) fun _ => blind_setModeProc md

theorem blind_softReset : Blind H softReset :=
  blind_bind (blind_memWrite _ _) fun _ => blind_modify fun _ _ h => h.withMode .sleep

theorem blind_checkIdProc : Blind H checkIdProc := by
  refine blind_bind (blind_memRead _ _) fun bytes => ?_
  by_cases hb : bytes.getD 0 0 ≠ 0x58#8
  · rw [if_pos hb]
    exact blind_bind (blind_modify fun _ _ h => { h with addrValid := rfl, lifecycle := rfl }) fun _ => blind_raise _
  · rw [if_neg hb]
    exact blind_pure _

theorem blind_fetchCal : Blind H fetchCal := by
  refine blind_bind (blind_modify fun _ _ h => { h with calValid := rfl }) fun _ => blind_bind ?_ fun c =>
    blind_modify fun _ _ h => { h with cal := fun _ => rfl, calValid := rfl }
  unfold readCalib
  iterate 12 refine blind_bind (blind_bind (blind_memRead _ _) fun _ => blind_pure _) fun _ => ?_
  exact blind_pure _

theorem blind_initProc : Blind H initProc := by
  refine blind_bind (blind_modify fun _ _ h => { h with
    lifecycle := rfl, tFineValid := rfl, tFine := fun hv => h.tFine (hv.imp_right nofun) }) fun _ => ?_
  refine blind_bind blind_ifInit fun _ => blind_bind (blind_modify fun _ _ h => { h with addrValid := rfl }) fun _ => ?_
  refine blind_bind blind_checkIdProc fun _ => blind_bind blind_softReset fun _ => blind_get_bind fun s s' h => ?_
  rw [h.params]
  refine blind_bind (blind_delay _) (fun _ => blind_bind blind_fetchCal fun _ =>
    blind_bind (blind_configureAllProc _ _ _ _ _) fun _ => blind_modify fun s s' h => ?_) s s' h
  rw [h.params]
  exact { h with pollBudget := rfl, lifecycle := rfl, params := rfl }

theorem blind_answerMode (f : Byte) : Blind H (answerMode f) := by
  unfold answerMode
  by_cases hf : f.setWidth 2 = 0b10#2
  · rw [if_pos hf]
    refine blind_get_bind fun s s' h => ?_
    rw [h.params]
    cases s.params.mode10Decode with
    | forced => exact .ok _ h
    | unknown => exact .error _ h
  · rw [if_neg hf]
    exact blind_pure _

theorem blind_readCode (reg : Byte) (start : Nat) (valid : BitVec 3 → Bool) : Blind H (readCode reg start valid) := by
  refine blind_bind (blind_codecGet reg start 3) fun f => ?_
  cases valid (f.setWidth 3) with
  | true => exact blind_pure _
  | false => exact blind_raise _

theorem blind_pollLoop (n : Nat) : Blind H (pollLoop n) := by
  induction n with
  | zero => exact blind_bind (blind_modify fun _ _ h => h.withPState .timedOut) fun _ => blind_raise _
  | succ n ih =>
    refine blind_bind (blind_codecGet _ _ _) fun m => blind_get_bind fun s s' h => ?_
    rw [h.params, h.pollBudget]
    by_cases hm : m = 0#8
    · rw [if_pos hm, if_pos hm]
      exact .ok _ { h with pollBudget := rfl, pstate := fun _ => rfl, params := rfl }
    rw [if_neg hm, if_neg hm]
    by_cases hb : s.pollBudget.ult s.params.pollPeriod.ms
    · rw [if_pos hb, if_pos hb]
      exact .error _ { h with pollBudget := rfl, pstate := fun _ => rfl, params := rfl }
    · rw [if_neg hb, if_neg hb]
      exact blind_bind (blind_delay _) (fun _ => ih) _ _ { h with pollBudget := rfl, params := rfl }

theorem blind_fetchRaw (base : Byte) : Blind H (fetchRaw base) := by
  have harm : Blind H (modify fun s => { s with pollBudget := s.params.pollCeilingMs } : Proc PUnit) :=
    blind_modify fun s s' h => by
      rw [h.params]
      exact { h with pollBudget := rfl, params := rfl }
  have hpoll : Blind H poll :=
    blind_bind (blind_modify fun _ _ h => h.withPState .measuring) fun _ => blind_get_bind fun s s' h => by
      rw [h.params, h.pollBudget]
      exact blind_pollLoop _ s s' h
  exact blind_bind harm fun _ => blind_bind hpoll fun _ => blind_bind (blind_memRead _ _) fun _ => blind_pure _

theorem blind_retrigger : Blind H retrigger :=
  blind_get_bind fun s s' h => by
    rw [h.mode]
    by_cases hm : s.mode = .forced
    · rw [if_pos hm]
      exact blind_codecSet _ _ _ _ s s' h
    · rw [if_neg hm]
      exact .ok _ h

theorem blind_altQuick (p : U32) : Blind H (altQuick p) :=
  blind_bind (blind_power _ _) fun _ => blind_pure _

/-- CompT reads the calibration store, and writes T_FINE without reading it (R86). -/
theorem blind_compT (hH : H ≠ .cal) (adc : U20) : Blind H (compT adc) := by
  intro s s' h
  rw [compT_run, compT_run, h.cal hH]
  exact .ok _ { h with cal := fun _ => rfl, tFine := fun _ => rfl, tFineValid := rfl }

theorem blind_requireTFine : Blind H requireTFine := by
  intro s s' h
  rw [requireTFine_run, requireTFine_run, h.tFineValid]
  split
  · exact .ok _ h
  · exact .error _ h

/-- CompP reads T_FINE only where it is valid (R87). -/
theorem blind_compP (hH : H ≠ .cal) (adc : U20) : Blind H (compP adc) := by
  intro s s' h
  have hvalid := h.tFineValid
  cases hv : s.tFineValid with
  | true =>
    rw [hv] at hvalid
    rw [compP_valid adc hv, compP_valid adc hvalid, h.cal hH, h.tFine (.inr hv)]
    exact .ok _ h
  | false =>
    rw [hv] at hvalid
    rw [compP_unset adc hv, compP_unset adc hvalid]
    exact .error _ h

/-! ### Commands -/

/-- No command sees the poller's state or an invalid T_FINE; INIT does not see the calibration store. -/
theorem blind_steps {i : Instr} (hH : H ≠ .cal ∨ i = .init) : Blind H (steps i) := by
  by_cases hi : i = .init
  · subst hi
    exact blind_bind blind_initProc fun _ => blind_pure _
  have hcal := hH.resolve_right hi
  cases i with
  | init => exact absurd rfl hi
  | setField reg start width value =>
    intro s s' h
    by_cases hm : s.mode = .sleep
    · rw [steps_setField_sleep reg start width value hm, steps_setField_sleep reg start width value (h.mode.trans hm)]
      exact blind_bind (blind_codecSet _ _ _ _) (fun _ => blind_pure _) s s' h
    · rw [steps_setField_notSleep reg start width value hm,
        steps_setField_notSleep reg start width value (h.mode ▸ hm)]
      exact .error _ h
  | getField => exact blind_bind (blind_codecGet _ _ _) fun _ => blind_pure _
  | deinit =>
    exact blind_bind (blind_modify fun _ _ h => { h with lifecycle := rfl }) fun _ => blind_bind blind_softReset fun _ =>
      blind_bind blind_ifDeinit fun _ => blind_pure _
  | checkId => exact blind_bind blind_checkIdProc fun _ => blind_pure _
  | reset => exact blind_bind blind_softReset fun _ => blind_pure _
  | setMode => exact blind_bind (blind_setModeProc _) fun _ => blind_pure _
  | setOsrsP => exact blind_bind (blind_setSleepOnly _ _ _) fun _ => blind_pure _
  | setOsrsT => exact blind_bind (blind_setSleepOnly _ _ _) fun _ => blind_pure _
  | setStandby => exact blind_bind (blind_setSleepOnly _ _ _) fun _ => blind_pure _
  | setFilter => exact blind_bind (blind_setSleepOnly _ _ _) fun _ => blind_pure _
  | configureAll => exact blind_bind (blind_configureAllProc _ _ _ _ _) fun _ => blind_pure _
  | getMode => exact blind_bind (blind_codecGet _ _ _) blind_answerMode
  | getOsrsP => rw [steps]; exact blind_readCode _ _ _
  | getOsrsT => rw [steps]; exact blind_readCode _ _ _
  | getStandby => rw [steps]; exact blind_readCode _ _ _
  | getFilter => rw [steps]; exact blind_readCode _ _ _
  | compT => exact blind_bind (blind_compT hcal _) fun _ => blind_pure _
  | compP => exact blind_bind (blind_compP hcal _) fun _ => blind_pure _
  | getTemperature =>
    exact blind_bind (blind_fetchRaw _) fun _ => blind_bind (blind_compT hcal _) fun _ => blind_pure _
  | getPressure =>
    exact blind_bind blind_requireTFine fun _ => blind_bind (blind_fetchRaw _) fun _ =>
      blind_bind (blind_compP hcal _) fun _ => blind_pure _
  | getAll =>
    exact blind_bind blind_retrigger fun _ => blind_bind (blind_fetchRaw _) fun _ =>
      blind_bind (blind_compT hcal _) fun _ => blind_bind (blind_fetchRaw _) fun _ =>
      blind_bind (blind_compP hcal _) fun _ => blind_bind (blind_altQuick _) fun _ => blind_pure _

theorem agree_conclude {r r' : EStateM.Result Stop State RspVal} (h : AgreeIn H r r') :
    Agree H (conclude r) (conclude r') := by
  cases h with
  | ok v ht => exact ht.respond .ok v
  | error e ht =>
    cases e with
    | raise c => exact ht.respond c .absent
    | fault f => exact ht.enterFault f

/-- The checks of R135 do not see the hidden register, and the steps are run only where check 5 lets them. -/
theorem agree_checked {needsReady : Bool} {body : Proc RspVal} {s s' : State} (h : Agree H s s')
    (hbody : needsReady = false ∨ s.lifecycle = .ready → Blind H body) :
    Agree H (checked needsReady body s) (checked needsReady body s') := by
  unfold checked
  rw [State.capsPresent, State.capsPresent, h.fault, h.params, h.lifecycle]
  split
  · exact h.respond _ _
  split
  · exact h.respond _ _
  split
  · exact h.respond _ _
  split
  · exact h.enterFault _
  · rename_i hcheck
    refine agree_conclude (hbody ?_ s s' h)
    cases needsReady with
    | false => exact .inl rfl
    | true =>
      refine .inr ?_
      cases hl : s.lifecycle with
      | ready => rfl
      | uninit => exact absurd (by rw [hl]; rfl) hcheck

theorem exec_agree {i : Instr} {s s' t : State} (h : Agree H s s')
    (hi : needsReady i = false ∨ s.lifecycle = .ready → Blind H (steps i)) (hexec : exec i s = .next t) :
    ∃ u, exec i s' = .next u ∧ Agree H t u := by
  rw [exec_eq] at hexec
  cases hexec
  exact ⟨_, exec_eq i s', agree_checked h hi⟩

end

/-- Settles O19: the run from the other state of the poller stays in step. -/
theorem pollerStateUnseen : Obligations.PollerStateUnseen := by
  intro i s t p h
  obtain ⟨u, hu, hagree⟩ := exec_agree (agree_withPState s p) (fun _ => blind_steps (.inl nofun)) h
  exact ⟨u, hu, hagree.eq_withPState⟩

/-- Settles O20: in Uninit no command but INIT comes to its steps, and INIT writes the store without reading it; an invalid
T_FINE is written before it is read, or the command faults. -/
theorem unwrittenRegistersUnseen : Obligations.UnwrittenRegistersUnseen := by
  refine ⟨fun i s t c hl h => ?_, fun i s t v hv h => ?_⟩
  · have hinit (hready : needsReady i = false ∨ s.lifecycle = .ready) : i = .init := by
      by_contra hi
      simp [needsReady_of_ne hi, hl] at hready
    obtain ⟨u, hu, hagree⟩ := exec_agree (agree_withCal s c) (fun hready => blind_steps (.inr (hinit hready))) h
    exact ⟨u, hu, hagree.eq_withCal⟩
  · obtain ⟨u, hu, hagree⟩ := exec_agree (agree_withTFine hv v) (fun _ => blind_steps (.inl nofun)) h
    exact ⟨u, hu, hagree.eq_withTFine⟩

end Sys2Proof.Machine
end

section
/-! The capability calls and the sensor (20_memory sections 1 and 4, 70_reset_and_hazards section 3): what a failed call
leaves, what a write does to the sensor, what a read returns, the startup window and the Forced return. -/

namespace Sys2Proof.Machine

/-! ### A call that fails -/

theorem memWrite_fail_mem {s t : State} {a : Answer} {rest : List Answer} {e : Stop} {reg : Byte} {bytes : List Byte}
    (h : s.answers = a :: rest) (ha : a.ok = false) (hrun : memWrite reg bytes s = .error e t) :
    t.mem = if a.took then ({ s with answers := rest }.acceptBytes reg.toNat bytes).mem else s.mem := by
  rw [memWrite_run, s.nextAnswer_cons a rest h, if_neg (by simp [ha])] at hrun
  cases htook : a.took with
  | true =>
    rw [if_pos htook] at hrun
    cases hrun
    rfl
  | false =>
    rw [if_neg (by simp [htook])] at hrun
    cases hrun
    rfl

/-- Settles O21: each call's own equation for an answer that is no success. -/
theorem capabilityFailure : Obligations.CapabilityFailure := by
  intro s a rest h ha
  have hno : ¬a.ok = true := by simp [ha]
  refine ⟨fun reg n => ?_, fun reg bs => ?_, fun ms => ?_, ?_, ?_, fun x y => ?_⟩
  · obtain ⟨t, hrun, hblock, -, htrace⟩ := memRead_fail reg n h ha
    exact ⟨t, hrun, hblock, htrace⟩
  · obtain ⟨t, hrun, hblock, -, htrace⟩ := memWrite_fail reg bs h ha
    exact ⟨t, hrun, hblock, htrace, memWrite_fail_mem h ha hrun⟩
  · rw [delay_run, s.nextAnswer_cons a rest h, if_neg hno]
    rfl
  · rw [ifInit_run, s.nextAnswer_cons a rest h, if_neg hno]
    rfl
  · rw [ifDeinit_run, s.nextAnswer_cons a rest h, if_neg hno]
    rfl
  · rw [power_run, s.nextAnswer_cons a rest h, if_neg hno]
    rfl

/-! ### A byte written -/

theorem sameSensorBut_setSensorByte (s : State) (a : Nat) (v : Byte) : sameSensorBut [a] s (s.setSensorByte a v) :=
  fun _ hb => State.sensorByte_setSensorByte_other s a _ v (by simpa using hb)

theorem sameSensorBut_sensorReset (s : State) : sameSensorBut [0xF4, 0xF5] s s.sensorReset :=
  sameSensorBut_trans (sameSensorBut_mono (sameSensorBut_setSensorByte s 0xF4 0x00#8) (by simp))
    (sameSensorBut_mono (sameSensorBut_setSensorByte _ 0xF5 0x00#8) (by simp))

/-- A byte for any other address, or any other byte for RESET, has no effect (R49). -/
theorem State.acceptBytes_none (s : State) {reg v : Byte} (h4 : reg ≠ 0xF4#8) (h5 : reg ≠ 0xF5#8)
    (hreset : ¬(reg = 0xE0#8 ∧ v = 0xB6#8)) : s.acceptBytes reg.toNat [v] = s := by
  have addr {r : Byte} (h : reg ≠ r) : reg.toNat ≠ r.toNat := fun he => h (BitVec.eq_of_toNat_eq he)
  have hconfig : ¬(reg.toNat = 0xF4 ∨ reg.toNat = 0xF5) := not_or.mpr ⟨addr h4, addr h5⟩
  have hreset : ¬(reg.toNat = 0xE0 ∧ v = 0xB6#8) := fun ⟨he, hv⟩ => hreset ⟨BitVec.eq_of_toNat_eq he, hv⟩
  rw [State.acceptBytes, State.acceptByte, if_neg hconfig, if_neg hreset]
  rfl

/-- Settles O22: the three branches of `acceptByte`. -/
theorem sensorWriteEffects : Obligations.SensorWriteEffects := by
  refine fun s reg v => ⟨fun hreg => ?_, fun hreg hv => ?_, State.acceptBytes_none s⟩
  · rw [State.acceptBytes_config s reg v hreg]
    exact ⟨State.sensorByte_setSensorByte_same _ _ _ (by obtain rfl | rfl := hreg <;> decide),
      sameSensorBut_setSensorByte s reg.toNat v⟩
  · subst hreg hv
    rw [State.acceptBytes_reset]
    exact ⟨s.sensorByte_sensorReset_f4, s.sensorByte_sensorReset_f5, sameSensorBut_sensorReset s⟩

/-! ### A byte read -/

/-- While the startup time has not passed a read returns what was drawn (R153). -/
theorem State.seenByte_starting {s : State} (h : s.starting = true) (a : Nat) (free : Byte) :
    s.seenByte a free = free := by
  rw [State.seenByte, if_pos h]

theorem State.resetReadsZero_eq_false {s : State} (h : s.params.resetRead = .draw) : s.resetReadsZero = false := by
  simp [State.resetReadsZero, h]

/-- An address without a content reads as drawn, but for RESET where R31's assumption is made (log 19). -/
theorem State.seenByte_unlisted {s : State} {reg : Byte} (free : Byte) (h : storedAddr reg.toNat = false)
    (he : reg ≠ 0xE0#8 ∨ s.params.resetRead = .draw) : s.seenByte reg.toNat free = free :=
  s.seenByte_none _ free (s.sensorByte_unlisted _ h)
    (he.imp (fun hne h => hne (BitVec.eq_of_toNat_eq h)) State.resetReadsZero_eq_false)

/-- Where R31's assumption is made, RESET reads as 0x00 (log 19). -/
theorem State.seenByte_resetZero {s : State} (free : Byte) (hs : s.starting = false) (hm : s.params.envModel = .mem)
    (hz : s.params.resetRead = .zero) : s.seenByte (0xE0#8 : Byte).toNat free = 0x00#8 :=
  s.seenByte_reset free hs (by simp [State.resetReadsZero, hm, hz])

/-- Settles O23: the byte is what `seenByte` makes of the state after the read, in which the startup time has passed. -/
theorem sensorReadValues : Obligations.SensorReadValues := by
  intro s a rest reg h ha hs
  obtain ⟨b, t, hrun, hblock, -, htrace, -, hquiet, hstart, hseen⟩ := memRead_one reg h ha
  have hstart : t.starting = false := by rw [hstart, hs]; rfl
  have hparams : t.params = s.params := sameBlock_params hblock
  have held (hne : reg ≠ 0xF4#8) (he : t.params.envModel = .mem ∨ constantAddr reg.toNat = true) {x : Byte}
      (hx : s.sensorByte reg.toNat = some x) : b = x :=
    hseen.trans (State.seenByte_held t _ _ _ hstart he ((hquiet (.inl hne) _ List.not_mem_nil).trans hx))
  refine ⟨b, t, hrun, hblock, htrace, fun hc x => held ?_ (.inr hc), ?_, ?_, ?_, fun hc he => ?_, fun hst he => ?_⟩
  · rintro rfl
    cases hc
  · rintro rfl he hz
    exact hseen.trans (State.seenByte_resetZero _ hstart (by rw [hparams, he]) (by rw [hparams, hz]))
  · rintro rfl he x hx
    exact held (by decide) (.inl (by rw [hparams, he])) hx
  · rintro rfl he x hx
    obtain ⟨b', t', hrun', -, hval⟩ := memRead_ctrlMeas h ha x hx
    cases hrun.symm.trans hrun'
    exact hval he hs
  · exact hseen.trans (t.seenByte_free _ _ (by rw [hparams, he]) hc)
  · exact hseen.trans (State.seenByte_unlisted _ hst (by rwa [hparams]))

/-! ### The startup window -/

/-- A delay that succeeds and is long enough ends the startup window (R153). -/
theorem delay_settles {s : State} {a : Answer} {rest : List Answer} {ms : U32} (h : s.answers = a :: rest)
    (ha : a.ok = true) (hms : s.params.startupDelayMs.toNat ≤ ms.toNat) :
    ∃ t, delay ms s = .ok () t ∧ sameBlock s t ∧ t.answers = rest ∧ t.trace = s.trace ++ [.dly ms true] ∧
      t.mem = s.mem ∧ t.starting = false := by
  obtain ⟨t, hrun, hblock, hans, htrace⟩ := delay_ok ms h ha
  refine ⟨t, hrun, hblock, hans, htrace, ?_⟩
  have hule : s.params.startupDelayMs.ule ms = true := BitVec.ule_iff_toNat_le.mpr hms
  rw [delay_run, s.nextAnswer_cons a rest h, if_pos ha] at hrun
  simp only [State.waited, State.log_params, hule, if_true] at hrun
  cases hrun
  exact ⟨rfl, rfl⟩

/-- Settles O24: what opens the window, what a read inside it sees, what closes it. -/
theorem startupWindow : Obligations.StartupWindow := by
  refine ⟨fun s => ?_, fun s a rest reg h ha hset hs => ?_, fun s a rest ms h ha hms => ?_⟩
  · show (s.acceptBytes (0xE0#8).toNat [0xB6#8]).starting = true ↔ _
    rw [State.acceptBytes_reset, State.sensorReset_starting, bne_iff_ne]
  · obtain ⟨b, t, hrun, hblock, -, -, -, -, hstart, hseen⟩ := memRead_one reg h ha
    have hstart : t.starting = true := by rw [hstart, hs, hset]; rfl
    rw [State.seenByte_starting hstart] at hseen
    exact ⟨t, hseen ▸ hrun, hblock, hstart⟩
  · obtain ⟨t, hrun, hblock, -, -, -, hstart⟩ := delay_settles h ha hms
    exact ⟨t, hrun, hblock, hstart⟩

/-! ### The Forced return -/

/-- A completion drawn before a read of CTRL_MEAS clears a Forced mode field there (R51). -/
theorem State.sensorByte_beforeRead_completed {s : State} {a : Answer} {reg : Byte} {n : Nat} {b : Byte}
    (hc : a.completed = true) (hlo : reg.toNat ≤ 0xF4) (hhi : 0xF4 < reg.toNat + n) (hb : s.sensorByte 0xF4 = some b) :
    (s.beforeRead a reg n).sensorByte 0xF4 = some (if forcedCode b then b &&& 0xFC#8 else b) := by
  unfold State.beforeRead
  dsimp only
  rw [if_pos ⟨hc, hlo, hhi⟩]
  refine State.sensorByte_completeForced _ b ?_
  split <;> exact hb

/-- The bits of a byte whose Forced mode field has returned to 00. -/
theorem forcedReturn_bits (b : Byte) :
    (if forcedCode b then b &&& 0xFC#8 else b).extractLsb' 2 6 = b.extractLsb' 2 6 ∧
      (if forcedCode b then b &&& 0xFC#8 else b).extractLsb' 0 2 =
        if b.extractLsb' 0 2 = 0b11#2 then 0b11#2 else 0b00#2 := by
  revert b
  decide

/-- Settles O25: `beforeRead` reaches CTRL_MEAS alone, and only with a completion drawn at a read that covers it. -/
theorem forcedReturn : Obligations.ForcedReturn := by
  refine fun s a reg n =>
    ⟨sameBlock_beforeRead s a reg n, fun x hx => ?_, fun hquiet x _ => ?_, fun hc hlo hhi b hb => ?_⟩
  · exact State.sensorByte_beforeRead_other s a reg n x (by simpa using hx)
  · exact State.sensorByte_beforeRead_quiet s a reg n x hquiet
  · exact ⟨_, State.sensorByte_beforeRead_completed hc hlo hhi hb, forcedReturn_bits b⟩

end Sys2Proof.Machine
end

section
/-! The codec (40_codec): its bits, and the two commands that expose it. -/

namespace Sys2Proof.Machine

/-! ### The bits of a field -/

theorem lowMask_toNat {width : Nat} (h : width ≤ 8) : (lowMask width).toNat = 2 ^ width - 1 := by
  interval_cases width <;> rfl

theorem getLsbD_lowMask {width : Nat} (h : width ≤ 8) (i : Nat) : (lowMask width).getLsbD i = decide (i < width) := by
  rw [BitVec.getLsbD, lowMask_toNat h, Nat.testBit_two_pow_sub_one]

/-- A codec write replaces the bits of the field, and no other (R75). -/
theorem getLsbD_insertField (b v : Byte) {start width i : Nat} (h : start + width ≤ 8) (hi : i < 8) :
    (insertField b v start width).getLsbD i =
      if start ≤ i ∧ i < start + width then v.getLsbD (i - start) else b.getLsbD i := by
  have hw : width ≤ 8 := by omega
  simp only [insertField, fieldMask, BitVec.getLsbD_or, BitVec.getLsbD_and, BitVec.getLsbD_not, BitVec.getLsbD_shiftLeft,
    getLsbD_lowMask hw, hi, decide_true, Bool.true_and]
  by_cases hlo : i < start
  · simp [hlo, Nat.not_le.mpr hlo]
  by_cases hhi : i < start + width
  · have hin : i - start < width := by omega
    simp [hlo, hhi, hin, Nat.not_lt.mp hlo]
  · have hout : ¬i - start < width := by omega
    simp [hlo, hhi, hout]

/-- Reading a field back gives the low bits written (40_codec section 1). -/
theorem extractField_insertField (b v : Byte) {start width : Nat} (h : start + width ≤ 8) :
    extractField (insertField b v start width) start width = v &&& lowMask width := by
  refine BitVec.eq_of_getLsbD_eq fun i hi => ?_
  have hw : width ≤ 8 := by omega
  simp only [extractField, BitVec.getLsbD_and, BitVec.getLsbD_ushiftRight, getLsbD_lowMask hw]
  by_cases hin : i < width
  · rw [getLsbD_insertField b v h (by omega), if_pos (by omega), Nat.add_sub_cancel_left]
  · simp [hin]

/-- A whole-byte field is the byte. -/
theorem insertField_whole (b v : Byte) : insertField b v 0 8 = v := by
  refine BitVec.eq_of_getLsbD_eq fun i hi => ?_
  rw [getLsbD_insertField b v (by decide) hi, if_pos (by omega), Nat.sub_zero]

/-- CodecSet on any register: the read and the write (R75). -/
theorem codecSet_calls {s : State} {a1 a2 : Answer} {rest : List Answer} (reg value : Byte) (start width : Nat)
    (h : s.answers = a1 :: a2 :: rest) (h1 : a1.ok = true) (h2 : a2.ok = true) :
    ∃ b t, codecSet reg value start width s = .ok () t ∧ sameBlock s t ∧ t.answers = rest ∧
      t.trace = s.trace ++ codecSetEvents reg b value start width := by
  obtain ⟨b, t, hread, hblock, hans, htrace, -⟩ := memRead_one reg h h1
  refine ⟨b, ({ t with answers := rest }.acceptBytes reg.toNat [insertField b value start width]).log
    (.wr reg [insertField b value start width] true), ?_, ?_, by simp, ?_⟩
  · rw [codecSet, bind_run_ok hread]
    exact memWrite_ok reg _ hans h2
  · exact sameBlock_trans hblock (sameBlock_trans (sameBlock_answers t rest)
      (sameBlock_trans (sameBlock_acceptBytes _ _ _) (sameBlock_log _ _)))
  · simp [htrace, codecSetEvents]

/-- Settles O28: (a) and (c) by the bits of a written byte; in (b) the write leaves the byte that the read then sees. -/
theorem codecProperties : Obligations.CodecProperties := by
  refine ⟨fun b v start width i hw hfit hout => ?_, ?_, fun s reg v a1 a2 rest h h1 h2 => ?_⟩
  · by_cases hi : i < 8
    · rw [getLsbD_insertField b v hfit hi, if_neg (by omega)]
    · rw [BitVec.getLsbD_of_ge _ _ (Nat.not_lt.mp hi), BitVec.getLsbD_of_ge _ _ (Nat.not_lt.mp hi)]
  · intro s reg v start width a1 a2 a3 rest hreg hw hfit hs h h1 h2 h3
    obtain ⟨b, s1, hset, hblock, hans, -, hbyte, -, hstart, -⟩ := codecSet_ok reg v start width h h1 h2 hreg
    obtain ⟨b', s2, hget, hblock', -, -, -, hquiet, hstart', hseen⟩ := codecGet_ok reg start width hans h3
    have hparams : s2.params = s.params := (sameBlock_params hblock').trans (sameBlock_params hblock)
    refine ⟨s1, s2, _, hset, hget, fun he hcomp => ?_, fun he => ?_⟩
    · have hstart : s2.starting = false := by rw [hstart', hstart, hs]; rfl
      have hheld : s2.sensorByte reg.toNat = some (insertField b v start width) :=
        (hquiet (hcomp.imp_left fun h5 => by rw [h5]; decide) _ List.not_mem_nil).trans hbyte
      rw [hseen, State.seenByte_held s2 _ _ _ hstart (.inl (by rw [hparams, he])) hheld,
        extractField_insertField b v hfit]
      rfl
    · rw [hseen, s2.seenByte_free _ _ (by rw [hparams, he]) (by obtain rfl | rfl := hreg <;> decide)]
      rfl
  · obtain ⟨b, t, hrun, -, -, htrace⟩ := codecSet_calls reg v 0 8 h h1 h2
    rw [codecSetEvents, insertField_whole] at htrace
    exact ⟨b, t, hrun, htrace⟩

/-! ### A command whose steps are known -/

section
variable {s t : State} {i : Instr} (hop : s.operational)
include hop

theorem exec_of_steps_ok {v : RspVal} (h : steps i s = .ok v t) : exec i s = .next (t.respond .ok v) := by
  rw [exec_operational hop, h, conclude_ok]

theorem exec_of_steps_raise {c : RspCode} (h : steps i s = .error (.raise c) t) :
    exec i s = .next (t.respond c .absent) := by
  rw [exec_operational hop, h, conclude_raise]

end

theorem sameBlock_respond {s t : State} (h : sameBlock s t) (c : RspCode) (v : RspVal) : sameBlock s (t.respond c v) :=
  sameBlock_trans h (sameBlock_log t _)

/-- Settles O29: SET_FIELD in Sleep is the codec's write to one of its two registers. -/
theorem setFieldResult : Obligations.SetFieldResult := by
  intro s reg start width value a1 a2 rest hop hwf hm h h1 h2
  obtain ⟨b, t, hrun, hblock, hans, htrace, hbyte, hsensor, -, hval⟩ :=
    codecSet_ok reg value start.toNat width.toNat h h1 h2 (setField_target hwf)
  have hsteps : steps (.setField reg start width value) s = .ok .absent t := by
    rw [steps_setField_sleep reg start width value hm, bind_run_ok hrun, pure_run]
  refine ⟨b, _, exec_of_steps_ok hop hsteps, sameBlock_respond hblock _ _, hans, congrArg (· ++ [_]) htrace, hbyte,
    hsensor, fun he hs hc x hx => ?_⟩
  rw [hval he hs x hx, if_neg (by simp [hc])]

/-- Settles O30: GET_FIELD is the codec's read, and the byte is what `seenByte` makes of the state after it. -/
theorem getFieldResult : Obligations.GetFieldResult := by
  intro s reg start width a rest hop _ h ha
  obtain ⟨b, t, hrun, hblock, hans, htrace, -, hquiet, hstart, hseen⟩ := codecGet_ok reg start.toNat width.toNat h ha
  have hparams : t.params = s.params := sameBlock_params hblock
  have hsteps : steps (.getField reg start width) s = .ok (.byte (extractField b start.toNat width.toNat)) t :=
    bind_run_ok hrun
  refine ⟨b, _, exec_of_steps_ok hop hsteps, sameBlock_respond hblock _ _, hans, ?_, fun _ hst he => ?_,
    fun he hz hs hreg => ?_, fun he hc => ?_, fun he hs hc x hx => ?_⟩
  · rw [State.respond_trace, htrace, List.append_assoc]
    rfl
  · exact hseen.trans (State.seenByte_unlisted _ hst (by rwa [hparams]))
  · subst hreg
    exact hseen.trans (State.seenByte_resetZero _ (by rw [hstart, hs]; rfl) (by rw [hparams, he]) (by rw [hparams, hz]))
  · exact hseen.trans (t.seenByte_free _ _ (by rw [hparams, he]) hc)
  · exact hseen.trans (seenByte_quiet hblock hquiet hstart he hs hc x hx)

end Sys2Proof.Machine
end

section
/-! The mode controller's setters (44_mode_controller sections 1 and 3): SET_MODE, the Sleep and restore protocol to its
end and where it is cut short, and CONFIGURE_ALL. -/

namespace Sys2Proof.Machine

/-- Settles O33: SET_MODE is SetModeProc and its answer. -/
theorem setModeResult : Obligations.SetModeResult := by
  intro s m a1 a2 rest hop h h1 h2
  obtain ⟨b, t, hrun, hblock, hans, htrace, hbyte, -, -, hval⟩ := setModeProc_ok m h h1 h2
  have hsteps : steps (.setMode m) s = .ok .absent t := bind_run_ok hrun
  refine ⟨b, _, exec_of_steps_ok hop hsteps, sameBlock_respond hblock _ _, hans, ?_, hbyte, fun he hs hc x hx => ?_⟩
  · rw [State.respond_trace, htrace, List.append_assoc]
    rfl
  · rw [hval he hs x hx, if_neg (by simp [hc])]

/-! ### A protocol cut short -/

theorem abortedAt_append_left {es : List Event} (fs : List Event) {j : Nat} (h : j < es.length) :
    abortedAt (es ++ fs) j = abortedAt es j := by
  rw [abortedAt, abortedAt, List.take_append_of_le_length h.le, List.drop_append_of_le_length h.le,
    List.take_append_of_le_length (by rw [List.length_drop]; omega)]

theorem abortedAt_append_right (es fs : List Event) (j : Nat) :
    abortedAt (es ++ fs) (es.length + j) = es ++ abortedAt fs j := by
  rw [abortedAt, abortedAt, List.take_length_add_append, List.drop_length_add_append, List.append_assoc]

/-- The protocol is three codec writes: to Sleep, the field, back to the mode. -/
theorem sleepOnlyEvents_eq (m : Mode) (reg : Byte) (start : Nat) (code : BitVec 3) (b0 b1 b2 : Byte) :
    sleepOnlyEvents m reg start code b0 b1 b2 =
      codecSetEvents 0xF4#8 b0 (Mode.sleep.code.setWidth 8) 0 2 ++
        (codecSetEvents reg b1 (code.setWidth 8) start 3 ++ codecSetEvents 0xF4#8 b2 (m.code.setWidth 8) 0 2) := by
  have sleepCode : ∀ b : Byte, (b &&& 0xFC#8) ||| Mode.sleep.code.setWidth 8 = b &&& 0xFC#8 := by decide
  simp only [sleepOnlyEvents, codecSetEvents, insertField_mode, sleepCode, List.cons_append, List.nil_append]

/-- `p` stops at its call number `j`: it has made the calls before it, and the block is as it was. -/
def StopsAt (p : Proc Unit) (s : State) (rest : List Answer) (es : List Event) (j : Nat) (t : State) : Prop :=
  p s = .error (.raise .interfaceError) t ∧ sameBlock s t ∧ t.answers = rest ∧ t.trace = s.trace ++ abortedAt es j

theorem codecSet_stopsAt {s : State} {as rest : List Answer} {a : Answer} (reg value : Byte) (start width : Nat)
    (h : s.answers = as ++ a :: rest) (hlen : as.length < 2) (hok : allOk as) (ha : a.ok = false) :
    ∃ b t, StopsAt (codecSet reg value start width) s rest (codecSetEvents reg b value start width) as.length t := by
  match as, hlen with
  | [], _ =>
    obtain ⟨t, hstop⟩ := codecSet_readFails reg value start width h ha
    exact ⟨0, t, hstop⟩
  | [a1], _ => exact codecSet_writeFails reg value start width h (hok a1 (List.mem_singleton_self a1)) ha

/-- A SetModeProc cut short leaves MODE, which it writes last (R104). -/
theorem setModeProc_stopsAt {s : State} {as rest : List Answer} {a : Answer} (m : Mode)
    (h : s.answers = as ++ a :: rest) (hlen : as.length < 2) (hok : allOk as) (ha : a.ok = false) :
    ∃ b t, StopsAt (setModeProc m) s rest (codecSetEvents 0xF4#8 b (m.code.setWidth 8) 0 2) as.length t := by
  obtain ⟨b, t, hstop, hkept⟩ := codecSet_stopsAt 0xF4#8 (m.code.setWidth 8) 0 2 h hlen hok ha
  exact ⟨b, t, setModeProc_of_stop hstop, hkept⟩

/-- The field's write and the way back, cut short: the mode in between stays. -/
theorem fieldAndBack_stopsAt {s : State} {as rest : List Answer} {a : Answer} (reg value : Byte) (start width : Nat)
    (m : Mode) (h : s.answers = as ++ a :: rest) (hlen : as.length < 4) (hok : allOk as) (ha : a.ok = false) :
    ∃ b1 b2 t, StopsAt (codecSet reg value start width >>= fun _ => setModeProc m) s rest
      (codecSetEvents reg b1 value start width ++ codecSetEvents 0xF4#8 b2 (m.code.setWidth 8) 0 2) as.length t := by
  obtain hearly | hlate := Nat.lt_or_ge as.length 2
  · obtain ⟨b, t, hstop, hblock, hans, htrace⟩ := codecSet_stopsAt reg value start width h hearly hok ha
    exact ⟨b, 0, t, bind_run_error hstop, hblock, hans, by rw [htrace, abortedAt_append_left _ hearly]⟩
  · match as, hlate with
    | a1 :: a2 :: bs, _ =>
      simp only [allOk, List.forall_mem_cons] at hok
      obtain ⟨h1, h2, hok⟩ := hok
      have hlen : bs.length < 2 := Nat.lt_of_add_lt_add_right (n := 2) hlen
      obtain ⟨b1, u, hset, hblock, hans, htrace⟩ := codecSet_calls reg value start width h h1 h2
      obtain ⟨b2, t, hstop, hblock', hans', htrace'⟩ := setModeProc_stopsAt m hans hlen hok ha
      refine ⟨b1, b2, t, ?_, sameBlock_trans hblock hblock', hans', ?_⟩
      · rw [bind_run_ok hset, hstop]
      · rw [htrace', htrace, List.append_assoc, ← abortedAt_append_right, Nat.add_comm]
        rfl

/-- Settles O34: cut short while going to Sleep the protocol leaves MODE, and after that in Sleep. -/
theorem sleepOnlyAbort : Obligations.SleepOnlyAbort := by
  intro s reg start code as a rest h hlen hok ha
  have hproc : setSleepOnly reg start code s =
      (setModeProc .sleep >>= fun _ => codecSet reg (code.setWidth 8) start 3 >>= fun _ => setModeProc s.mode) s := rfl
  simp only [sleepOnlyEvents_eq, hproc]
  obtain hearly | hlate := Nat.lt_or_ge as.length 2
  · obtain ⟨b, t, hstop, hblock, hans, htrace⟩ := setModeProc_stopsAt .sleep h hearly hok ha
    refine ⟨b, 0, 0, t, bind_run_error hstop, ?_, hans, ?_⟩
    · rwa [if_pos hearly]
    · rw [htrace, abortedAt_append_left _ hearly]
  · rw [if_neg (Nat.not_lt.mpr hlate)]
    match as, hlate with
    | a1 :: a2 :: bs, _ =>
      simp only [allOk, List.forall_mem_cons] at hok
      obtain ⟨h1, h2, hok⟩ := hok
      have hlen : bs.length < 4 := Nat.lt_of_add_lt_add_right (n := 2) hlen
      obtain ⟨b0, u, hset, hblock, hans, htrace, -⟩ := setModeProc_ok .sleep h h1 h2
      obtain ⟨b1, b2, t, hstop, hblock', hans', htrace'⟩ :=
        fieldAndBack_stopsAt reg (code.setWidth 8) start 3 s.mode hans hlen hok ha
      refine ⟨b0, b1, b2, t, ?_, sameBlock_trans hblock hblock', hans', ?_⟩
      · rw [bind_run_ok hset, hstop]
      · rw [← insertField_mode] at htrace
        rw [htrace', htrace, List.append_assoc,
          show (a1 :: a2 :: bs).length = 2 + bs.length from Nat.add_comm bs.length 2]
        exact congrArg (s.trace ++ ·) (abortedAt_append_right (codecSetEvents _ _ _ 0 2) _ _).symm

/-! ### The four sleep-only setters -/

theorem SleepOnlySetter.steps_eq {i : Instr} {reg : Byte} {start : Nat} {code : BitVec 3}
    (h : SleepOnlySetter i reg start code) :
    (reg = 0xF4#8 ∨ reg = 0xF5#8) ∧ steps i = setSleepOnly reg start code >>= fun _ => pure .absent := by
  obtain ⟨c, rfl, rfl, rfl, rfl⟩ | ⟨c, rfl, rfl, rfl, rfl⟩ | ⟨c, rfl, rfl, rfl, rfl⟩ | ⟨c, rfl, rfl, rfl, rfl⟩ := h
  · exact ⟨.inl rfl, rfl⟩
  · exact ⟨.inl rfl, rfl⟩
  · exact ⟨.inr rfl, rfl⟩
  · exact ⟨.inr rfl, rfl⟩

/-- Settles O35: the protocol run to its end, and its answer; with no completion drawn each byte read is the one held. -/
theorem sleepOnlySettersResult : Obligations.SleepOnlySettersResult := by
  intro i reg start code s as rest hi hop h hlen hok
  obtain ⟨hreg, hi⟩ := hi.steps_eq
  match as, hlen with
  | [a1, a2, a3, a4, a5, a6], _ =>
    simp only [allOk, List.forall_mem_cons] at hok
    obtain ⟨h1, h2, h3, h4, h5, h6, -⟩ := hok
    obtain ⟨b0, b1, b2, t, hrun, hblock, hans, htrace, hctrl, hconfig, -, -, -, hval⟩ :=
      setSleepOnly_ok reg start code h h1 h2 h3 h4 h5 h6 hreg
    have hsteps : steps i s = .ok .absent t := by rw [hi, bind_run_ok hrun, pure_run]
    refine ⟨b0, b1, b2, _, exec_of_steps_ok hop hsteps, sameBlock_respond hblock _ _, hans, congrArg (· ++ [_]) htrace,
      hctrl, hconfig, fun he hs hc x y hx hy => ?_⟩
    simp only [List.forall_mem_cons] at hc
    obtain ⟨hc1, -, -, -, hc5, -⟩ := hc
    obtain ⟨hb0, hb1, hb2⟩ := hval he hs x y hx hy
    refine ⟨?_, hb1, hb2.resolve_right (by simp [hc5])⟩
    rw [hb0, if_neg (by simp [hc1])]

end Sys2Proof.Machine
end

section
/-! The mode controller's getters and the lifecycle commands but INIT's success (44_mode_controller sections 2 and 4). -/

namespace Sys2Proof.Machine

/-! ### The getters -/

theorem extractField_setWidth_mode (b : Byte) : (extractField b 0 2).setWidth 2 = b.extractLsb' 0 2 := by
  revert b
  decide

theorem extractField_setWidth_code {start : Nat} (h : start = 2 ∨ start = 5) (b : Byte) :
    (extractField b start 3).setWidth 3 = b.extractLsb' start 3 := by
  revert b
  obtain rfl | rfl := h <;> decide

/-- Settles O44: one read, and what `answerMode` makes of its mode field. -/
theorem getModeResult : Obligations.GetModeResult := by
  intro s a rest hop h ha
  obtain ⟨b, t, hrun, hblock, hans, htrace, -, hquiet, hstart, hseen⟩ := codecGet_ok 0xF4#8 0 2 h ha
  have hsteps : steps .getMode s = answerMode (extractField b 0 2) t := bind_run_ok hrun
  have hparams : t.params = s.params := sameBlock_params hblock
  have answered {c : RspCode} {v : RspVal} (hexec : exec .getMode s = .next (t.respond c v)) :
      exec .getMode s = .next (t.respond c v) ∧ sameBlock s (t.respond c v) ∧ (t.respond c v).answers = rest ∧
        (t.respond c v).trace = s.trace ++ [.rd 0xF4#8 1 (some [b]), .rsp c v] :=
    ⟨hexec, sameBlock_respond hblock c v, hans, by rw [State.respond_trace, htrace, List.append_assoc]; rfl⟩
  have held (he : s.params.envModel = .mem) (hs : s.starting = false) (hc : a.completed = false) (x : Byte)
      (hx : s.sensorByte 0xF4 = some x) : b = x :=
    hseen.trans (seenByte_quiet hblock hquiet hstart he hs hc x hx)
  rw [answerMode, extractField_setWidth_mode] at hsteps
  by_cases h10 : b.extractLsb' 0 2 = 0b10#2
  · rw [if_pos h10, bind_run_ok (get_run t), hparams] at hsteps
    cases hdecode : s.params.mode10Decode with
    | forced =>
      rw [hdecode] at hsteps
      obtain ⟨hexec, hblock, hans, htrace⟩ := answered (exec_of_steps_ok hop hsteps)
      exact ⟨b, _, _, _, hexec, hblock, hans, htrace, fun hne => absurd h10 hne, fun _ _ => ⟨rfl, rfl⟩,
        fun _ => nofun, held⟩
    | unknown =>
      rw [hdecode] at hsteps
      obtain ⟨hexec, hblock, hans, htrace⟩ := answered (exec_of_steps_raise hop hsteps)
      exact ⟨b, _, _, _, hexec, hblock, hans, htrace, fun hne => absurd h10 hne, fun _ => nofun,
        fun _ _ => ⟨rfl, rfl⟩, held⟩
  · rw [if_neg h10] at hsteps
    obtain ⟨hexec, hblock, hans, htrace⟩ := answered (exec_of_steps_ok hop hsteps)
    exact ⟨b, _, _, _, hexec, hblock, hans, htrace, fun _ => ⟨rfl, rfl⟩, fun he => absurd he h10,
      fun he => absurd he h10, held⟩

/-- The four other getters read one three-bit field, and an enumerant's codes are those up to its limit. -/
theorem fieldGetter_steps {i : Instr} {reg : Byte} {start limit : Nat}
    (h : i = .getOsrsP ∧ reg = 0xF4#8 ∧ start = 2 ∧ limit = 5 ∨ i = .getOsrsT ∧ reg = 0xF4#8 ∧ start = 5 ∧ limit = 5 ∨
      i = .getStandby ∧ reg = 0xF5#8 ∧ start = 5 ∧ limit = 7 ∨ i = .getFilter ∧ reg = 0xF5#8 ∧ start = 2 ∧ limit = 4) :
    (start = 2 ∨ start = 5) ∧
      ∃ valid : BitVec 3 → Bool, steps i = readCode reg start valid ∧ ∀ c, valid c = decide (c.toNat ≤ limit) := by
  obtain ⟨rfl, rfl, rfl, rfl⟩ | ⟨rfl, rfl, rfl, rfl⟩ | ⟨rfl, rfl, rfl, rfl⟩ | ⟨rfl, rfl, rfl, rfl⟩ := h
  · exact ⟨.inl rfl, _, rfl, Osrs.isSome_ofCode⟩
  · exact ⟨.inr rfl, _, rfl, Osrs.isSome_ofCode⟩
  · exact ⟨.inr rfl, fun _ => true, rfl, by decide⟩
  · exact ⟨.inl rfl, _, rfl, Filter.isSome_ofCode⟩

/-- Settles O45: one read, and what `answerCode` makes of its field. -/
theorem fieldGettersResult : Obligations.FieldGettersResult := by
  intro i reg start limit s a rest hi hop h ha
  obtain ⟨hfield, valid, hi, hvalid⟩ := fieldGetter_steps hi
  obtain ⟨b, t, hrun, hblock, hans, htrace, -, hquiet, hstart, hseen⟩ := codecGet_ok reg start 3 h ha
  have hsteps : steps i s = answerCode valid (extractField b start 3) t := by
    rw [hi, readCode_eq, bind_run_ok hrun]
  have answered {c : RspCode} {v : RspVal} (hexec : exec i s = .next (t.respond c v)) :
      exec i s = .next (t.respond c v) ∧ sameBlock s (t.respond c v) ∧ (t.respond c v).answers = rest ∧
        (t.respond c v).trace = s.trace ++ [.rd reg 1 (some [b]), .rsp c v] :=
    ⟨hexec, sameBlock_respond hblock c v, hans, by rw [State.respond_trace, htrace, List.append_assoc]; rfl⟩
  have held (he : s.params.envModel = .mem) (hs : s.starting = false) (hc : a.completed = false) (x : Byte)
      (hx : s.sensorByte reg.toNat = some x) : b = x :=
    hseen.trans (seenByte_quiet hblock hquiet hstart he hs hc x hx)
  rw [answerCode, extractField_setWidth_code hfield, hvalid] at hsteps
  by_cases hle : (b.extractLsb' start 3).toNat ≤ limit
  · rw [if_pos (decide_eq_true hle)] at hsteps
    obtain ⟨hexec, hblock, hans, htrace⟩ := answered (exec_of_steps_ok hop hsteps)
    exact ⟨b, _, _, _, hexec, hblock, hans, htrace, fun _ => ⟨rfl, rfl⟩,
      fun hlt => absurd hle (Nat.not_le.mpr hlt), held⟩
  · rw [if_neg (by simpa using hle)] at hsteps
    obtain ⟨hexec, hblock, hans, htrace⟩ := answered (exec_of_steps_raise hop hsteps)
    exact ⟨b, _, _, _, hexec, hblock, hans, htrace, fun hle' => absurd hle' hle, fun _ => ⟨rfl, rfl⟩, held⟩

/-! ### RESET and CHECK_ID -/

/-- SoftReset (R106): the reset write, which clears CTRL_MEAS and CONFIG in the sensor, and then MODE. -/
theorem softReset_calls {s : State} {a : Answer} {rest : List Answer} (h : s.answers = a :: rest) (ha : a.ok = true) :
    ∃ t, softReset s = .ok () t ∧ sameBlock { s with mode := .sleep } t ∧ t.answers = rest ∧
      t.trace = s.trace ++ [.wr 0xE0#8 [0xB6#8] true] ∧ t.sensorByte 0xF4 = some 0x00#8 ∧
      t.sensorByte 0xF5 = some 0x00#8 ∧ sameSensorBut [0xF4, 0xF5] s t := by
  refine ⟨_, softReset_ok h ha, ?_, by simp, by simp, State.sensorByte_sensorReset_f4 _,
    State.sensorByte_sensorReset_f5 _, sameSensorBut_sensorReset { s with answers := rest }⟩
  rw [sameBlock_iff]
  simp

/-- Settles O43: RESET is SoftReset and its answer. -/
theorem resetResult : Obligations.ResetResult := by
  intro s a rest hop h
  refine ⟨fun ha => ?_, fun ha => ?_⟩
  · obtain ⟨t, hrun, hblock, hans, htrace, hctrl, hconfig, hsensor⟩ := softReset_calls h ha
    have hsteps : steps .reset s = .ok .absent t := bind_run_ok hrun
    refine ⟨_, exec_of_steps_ok hop hsteps, sameBlock_respond hblock _ _, hans, ?_, hctrl, hconfig, hsensor⟩
    rw [State.respond_trace, htrace, List.append_assoc]
    rfl
  · obtain ⟨t, hrun, hblock, -, htrace⟩ := memWrite_fail 0xE0#8 [0xB6#8] h ha
    have hsteps : steps .reset s = .error (.raise .interfaceError) t := bind_run_error (bind_run_error hrun)
    refine ⟨_, exec_of_steps_raise hop hsteps, sameBlock_respond hblock _ _, ?_⟩
    rw [State.respond_trace, htrace, List.append_assoc]
    rfl

/-- Settles O42: CHECK_ID is CheckIdProc and its answer. -/
theorem checkIdResult : Obligations.CheckIdResult := by
  intro s id a rest hop h ha hs hid
  obtain ⟨t, hblock, hans, htrace, hsensor, -, hrun⟩ := checkIdProc_ok h ha hs hid
  by_cases hright : id = 0x58#8
  · subst hright
    rw [if_pos rfl] at hrun
    have hsteps : steps .checkId s = .ok (.byte 0x58#8) t := bind_run_ok hrun
    refine ⟨_, exec_of_steps_ok hop hsteps, hans, hsensor, fun _ => ⟨sameBlock_respond hblock _ _, ?_⟩,
      fun hne => absurd rfl hne⟩
    rw [State.respond_trace, htrace, List.append_assoc]
    rfl
  · rw [if_neg hright] at hrun
    have hsteps : steps .checkId s = .error (.raise .sensorIdError) _ := bind_run_error hrun
    refine ⟨_, exec_of_steps_raise hop hsteps, hans, hsensor, fun he => absurd he hright, fun _ => ⟨?_, ?_⟩⟩
    · rw [sameBlock_iff] at *
      simp_all
    · rw [State.respond_trace, htrace, List.append_assoc]
      rfl

/-! ### DEINIT -/

theorem ifInit_ok {s : State} {a : Answer} {rest : List Answer} (h : s.answers = a :: rest) (ha : a.ok = true) :
    ifInit s = .ok () ({ s with answers := rest }.log (.ifI true)) := by
  rw [ifInit_run, s.nextAnswer_cons a rest h, if_pos ha]

theorem ifDeinit_ok {s : State} {a : Answer} {rest : List Answer} (h : s.answers = a :: rest) (ha : a.ok = true) :
    ifDeinit s = .ok () ({ s with answers := rest }.log (.ifD true)) := by
  rw [ifDeinit_run, s.nextAnswer_cons a rest h, if_pos ha]

theorem exec_deinit_uninit {s t : State} (hop : s.operational) (h : exec .deinit s = .next t) :
    t.lifecycle = .uninit := by
  rw [exec_operational hop] at h
  cases h
  exact conclude_of_endState (P := fun t => t.lifecycle = .uninit) (fun _ _ _ => id) (fun _ _ => id)
    (steps_deinit_uninit s)

/-- Settles O40: DEINIT's two calls, and Uninit written before them. -/
theorem deinitResult : Obligations.DeinitResult := by
  refine ⟨fun s a1 a2 rest hop h h1 h2 => ?_, fun s t => exec_deinit_uninit⟩
  obtain ⟨t, hreset, hblock, hans, htrace, hctrl, hconfig, -⟩ :=
    softReset_calls (s := { s with lifecycle := .uninit }) h h1
  have hsteps : steps .deinit s = .ok .absent ({ t with answers := rest }.log (.ifD true)) := by
    rw [steps, bind_run_ok (modify_run _ s), bind_run_ok hreset, bind_run_ok (ifDeinit_ok hans h2), pure_run]
  refine ⟨_, exec_of_steps_ok hop hsteps, sameBlock_trans hblock rfl, ?_, hctrl, hconfig⟩
  simp [htrace]

/-- DEINIT takes no fault of its own. -/
theorem exec_deinit_noFault {s t : State} (hop : s.operational) (h : exec .deinit s = .next t) : t.fault = false := by
  have hends : Ends (· = .raise .interfaceError) (fun _ => True) (steps .deinit) :=
    ends_bind (ends_modify _) fun _ _ => ends_bind (ends_softReset rfl) fun _ _ =>
      ends_bind (ends_ifDeinit rfl) fun _ _ => ends_pure trivial
  have hfault : (endState (steps .deinit s)).fault = false := by
    obtain ⟨⟨hnone, -, -⟩, -⟩ := hop
    exact (steps_sameBut .deinit s).fault.trans hnone
  have hstop := hends s
  rw [exec_operational hop] at h
  cases h
  cases hrun : steps .deinit s with
  | ok v u => rwa [hrun] at hfault
  | error e u =>
    rw [hrun] at hfault hstop
    cases hstop with
    | stop _ he =>
      subst he
      exact hfault

/-- Settles O41: DEINIT leaves a serving state in Uninit, and there check 5 decides. -/
theorem noUseAfterDeinit : Obligations.NoUseAfterDeinit := by
  intro s t i hop h hi
  have hparams : t.params = s.params := (exec_sameBut h).params
  have hfault := exec_deinit_noFault hop h
  have huninit := exec_deinit_uninit hop h
  obtain ⟨⟨-, hhandle, hcaps⟩, -⟩ := hop
  exact exec_notReady ⟨hfault, by rwa [hparams], by rwa [State.capsPresent, hparams]⟩ huninit hi

/-! ### INIT on a wrong chip -/

section
variable {s t : State} (hs : s.serving)
include hs

theorem exec_init_of_steps_ok {v : RspVal} (h : steps .init s = .ok v t) : exec .init s = .next (t.respond .ok v) := by
  rw [exec_init_serving hs, h, conclude_ok]

theorem exec_init_of_steps_raise {c : RspCode} (h : steps .init s = .error (.raise c) t) :
    exec .init s = .next (t.respond c .absent) := by
  rw [exec_init_serving hs, h, conclude_raise]

end

/-- INIT as its first call leaves it: closed but for the address. -/
def State.opened (s : State) (rest : List Answer) : State :=
  { s with lifecycle := .uninit, tFineValid := false, addrValid := true, answers := rest,
           trace := s.trace ++ [.ifI true] }

/-- INIT with its first call succeeding goes on with the chip ID (R110). -/
theorem initProc_opened {s : State} {a : Answer} {rest : List Answer} (h : s.answers = a :: rest) (ha : a.ok = true) :
    initProc s = (checkIdProc >>= fun _ => softReset >>= fun _ => get >>= fun r => delay r.params.startupDelayMs >>=
      fun _ => fetchCal >>= fun _ => configureAllProc .x1 .x1 .ms125 .off .sleep >>= fun _ =>
      modify fun s => { s with pollBudget := s.params.pollCeilingMs, lifecycle := .ready }) (s.opened rest) := by
  rw [initProc, bind_run_ok (modify_run _ s),
    bind_run_ok (ifInit_ok (s := { s with lifecycle := .uninit, tFineValid := false }) h ha)]
  rfl

/-- Settles O38: CheckIdProc closes again what INIT was opening. -/
theorem initWrongChip : Obligations.InitWrongChip := by
  intro s id a1 a2 rest hs h h1 h2 hstart hid hne
  obtain ⟨t, hblock, -, htrace, hsensor, -, hcheck⟩ :=
    checkIdProc_ok (s := s.opened (a2 :: rest)) rfl h2 hstart hid
  rw [if_neg hne] at hcheck
  have hsteps : steps .init s = .error (.raise .sensorIdError) _ :=
    bind_run_error ((initProc_opened h h1).trans (bind_run_error hcheck))
  refine ⟨_, exec_init_of_steps_raise hs hsteps, ?_, ?_, hsensor⟩
  · rw [sameBlock_iff] at hblock ⊢
    simp_all [State.opened]
  · simp [htrace, State.opened]

end Sys2Proof.Machine
end

section
/-! CONFIGURE_ALL and INIT's success (44_mode_controller sections 1 to 3): what the sensor holds after each protocol, and
the calls of a list of answers. -/

namespace Sys2Proof.Machine

/-! ### Bytes by their fields -/

/-- CTRL_MEAS and CONFIG by their fields: bits 7:5, 4:2 and 1:0 (10_state section 2). -/
def byteOfFields (high mid : BitVec 3) (low : BitVec 2) : Byte := high ++ mid ++ low

theorem exists_fields (b : Byte) : ∃ high mid low, b = byteOfFields high mid low :=
  ⟨b.extractLsb' 5 3, b.extractLsb' 2 3, b.extractLsb' 0 2, by revert b; decide⟩

theorem extractLsb'_byteOfFields (high mid : BitVec 3) (low : BitVec 2) :
    (byteOfFields high mid low).extractLsb' 0 2 = low := by
  revert high mid low
  decide

theorem insertField_mid (high mid code : BitVec 3) (low : BitVec 2) :
    insertField (byteOfFields high mid low) (code.setWidth 8) 2 3 = byteOfFields high code low := by
  revert high mid code low
  decide

theorem insertField_high (high mid code : BitVec 3) (low : BitVec 2) :
    insertField (byteOfFields high mid low) (code.setWidth 8) 5 3 = byteOfFields code mid low := by
  revert high mid code low
  decide

theorem byteOfFields_and_fc (high mid : BitVec 3) (low : BitVec 2) :
    byteOfFields high mid low &&& 0xFC#8 = byteOfFields high mid 0#2 := by
  revert high mid low
  decide

theorem byteOfFields_or_mode (high mid : BitVec 3) (m : Mode) :
    byteOfFields high mid 0#2 ||| m.code.setWidth 8 = byteOfFields high mid m.code := by
  revert high mid
  cases m <;> decide

/-! ### The protocols on a list of answers -/

theorem allOk_split {as : List Answer} {n m : Nat} (hlen : as.length = n + m) (hok : allOk as) :
    ∃ bs cs, as = bs ++ cs ∧ bs.length = n ∧ cs.length = m ∧ allOk bs ∧ allOk cs :=
  ⟨as.take n, as.drop n, (List.take_append_drop n as).symm, by simp [hlen], by simp [hlen],
    fun a ha => hok a (List.mem_of_mem_take ha), fun a ha => hok a (List.mem_of_mem_drop ha)⟩

/-- Under ENV-MEM, past the startup time, the sensor holding `x` and `y` in CTRL_MEAS and CONFIG before leaves it
holding `x'` and `y'` after. -/
def Reconfigures (s t : State) (f : Byte → Byte) (g : Byte → Byte) : Prop :=
  s.params.envModel = .mem → s.starting = false → ∀ x y, s.sensorByte 0xF4 = some x → s.sensorByte 0xF5 = some y →
    t.starting = false ∧ t.sensorByte 0xF4 = some (f x) ∧ t.sensorByte 0xF5 = some (g y)

theorem Reconfigures.trans {s t u : State} {f f' g g' : Byte → Byte} (h : Reconfigures s t f g)
    (h' : Reconfigures t u f' g') (hp : t.params = s.params) : Reconfigures s u (f' ∘ f) (g' ∘ g) := by
  intro he hs x y hx hy
  obtain ⟨hstart, hctrl, hconfig⟩ := h he hs x y hx hy
  exact h' (by rwa [hp]) hstart _ _ hctrl hconfig

theorem Reconfigures.congr {s t : State} {f f' g g' : Byte → Byte} (h : Reconfigures s t f g) (hf : ∀ x, f x = f' x)
    (hg : ∀ y, g y = g' y) : Reconfigures s t f' g' := funext hf ▸ funext hg ▸ h

theorem setModeProc_calls {s : State} {as rest : List Answer} (m : Mode) (h : s.answers = as ++ rest)
    (hlen : as.length = 2) (hok : allOk as) :
    ∃ b t, setModeProc m s = .ok () t ∧ sameBlock { s with mode := m } t ∧ t.answers = rest ∧
      t.trace = s.trace ++
        [.rd 0xF4#8 1 (some [b]), .wr 0xF4#8 [(b &&& 0xFC#8) ||| m.code.setWidth 8] true] ∧
      Reconfigures s t (fun x => (x &&& 0xFC#8) ||| m.code.setWidth 8) id := by
  match as, hlen with
  | [a1, a2], _ =>
    simp only [allOk, List.forall_mem_cons] at hok
    obtain ⟨h1, h2, -⟩ := hok
    obtain ⟨b, t, hrun, hblock, hans, htrace, hctrl, hsensor, hstart, hval⟩ := setModeProc_ok m h h1 h2
    refine ⟨b, t, hrun, hblock, hans, htrace, fun he hs x y hx hy => ⟨?_, ?_, ?_⟩⟩
    · rw [hstart, hs]
      rfl
    · have hkept : b &&& 0xFC#8 = x &&& 0xFC#8 := by
        rw [hval he hs x hx]
        split
        · exact and_fc_idem x
        · rfl
      rw [hctrl, hkept]
    · exact (hsensor _ (by decide)).trans hy

/-- SetSleepOnly on a list of six answers: a Forced completion in between changes only the mode field, which the last
write replaces. -/
theorem setSleepOnly_calls {s : State} {as rest : List Answer} (reg : Byte) (start : Nat) (code : BitVec 3)
    (h : s.answers = as ++ rest) (hlen : as.length = 6) (hok : allOk as) (hreg : reg = 0xF4#8 ∨ reg = 0xF5#8) :
    ∃ b0 b1 b2 t, setSleepOnly reg start code s = .ok () t ∧ sameBlock s t ∧ t.answers = rest ∧
      t.trace = s.trace ++ sleepOnlyEvents s.mode reg start code b0 b1 b2 ∧
      Reconfigures s t
        (fun x => ((if reg = 0xF4#8 then insertField (x &&& 0xFC#8) (code.setWidth 8) start 3 else x) &&& 0xFC#8) |||
          s.mode.code.setWidth 8)
        (fun y => if reg = 0xF5#8 then insertField y (code.setWidth 8) start 3 else y) := by
  match as, hlen with
  | [a1, a2, a3, a4, a5, a6], _ =>
    simp only [allOk, List.forall_mem_cons] at hok
    obtain ⟨h1, h2, h3, h4, h5, h6, -⟩ := hok
    obtain ⟨b0, b1, b2, t, hrun, hblock, hans, htrace, hctrl, hconfig, hctrlOnly, -, hstart, hval⟩ :=
      setSleepOnly_ok reg start code h h1 h2 h3 h4 h5 h6 hreg
    refine ⟨b0, b1, b2, t, hrun, hblock, hans, htrace, fun he hs x y hx hy => ⟨hstart hs, ?_, ?_⟩⟩
    · obtain ⟨-, -, hb2⟩ := hval he hs x y hx hy
      have hkept : b2 &&& 0xFC#8 =
          (if reg = 0xF4#8 then insertField (x &&& 0xFC#8) (code.setWidth 8) start 3 else x &&& 0xFC#8) &&& 0xFC#8 :=
        hb2.elim (congrArg (· &&& 0xFC#8)) And.right
      rw [hctrl, hkept]
      obtain rfl | rfl := hreg
      · rfl
      · exact congrArg (fun z => some (z ||| s.mode.code.setWidth 8)) (and_fc_idem x)
    · obtain rfl | rfl := hreg
      · exact (hctrlOnly rfl _ (by decide)).trans hy
      · obtain ⟨-, hb1, -⟩ := hval he hs x y hx hy
        rw [hconfig rfl, hb1]
        rfl

/-- ConfigureAll on a list of 26 answers: the four protocols, and the mode last. -/
theorem configureAllProc_calls {s : State} {as rest : List Answer} (op ot : Osrs) (sb : Standby) (fl : Filter)
    (md : Mode) (h : s.answers = as ++ rest) (hlen : as.length = 26) (hok : allOk as) :
    ∃ b t, configureAllProc op ot sb fl md s = .ok () t ∧ sameBlock { s with mode := md } t ∧ t.answers = rest ∧
      t.trace = s.trace ++ configureEvents s.mode op ot sb fl md b ∧
      Reconfigures s t (fun _ => byteOfFields ot.code op.code md.code)
        (fun y => byteOfFields sb.code fl.code (y.extractLsb' 0 2)) := by
  obtain ⟨as1, as', rfl, hlen1, hlen', hok1, hok'⟩ := allOk_split (n := 6) (m := 20) hlen hok
  obtain ⟨as2, as', rfl, hlen2, hlen', hok2, hok'⟩ := allOk_split (n := 6) (m := 14) hlen' hok'
  obtain ⟨as3, as', rfl, hlen3, hlen', hok3, hok'⟩ := allOk_split (n := 6) (m := 8) hlen' hok'
  obtain ⟨as4, as5, rfl, hlen4, hlen5, hok4, hok5⟩ := allOk_split (n := 6) (m := 2) hlen' hok'
  simp only [List.append_assoc] at h
  obtain ⟨b0, b1, b2, t1, hrun1, hblock1, hans1, htrace1, hheld1⟩ :=
    setSleepOnly_calls 0xF4#8 2 op.code h hlen1 hok1 (.inl rfl)
  obtain ⟨b3, b4, b5, t2, hrun2, hblock2, hans2, htrace2, hheld2⟩ :=
    setSleepOnly_calls 0xF4#8 5 ot.code hans1 hlen2 hok2 (.inl rfl)
  obtain ⟨b6, b7, b8, t3, hrun3, hblock3, hans3, htrace3, hheld3⟩ :=
    setSleepOnly_calls 0xF5#8 5 sb.code hans2 hlen3 hok3 (.inr rfl)
  obtain ⟨b9, b10, b11, t4, hrun4, hblock4, hans4, htrace4, hheld4⟩ :=
    setSleepOnly_calls 0xF5#8 2 fl.code hans3 hlen4 hok4 (.inr rfl)
  obtain ⟨b12, t, hrun, hblock, hans, htrace, hheld⟩ := setModeProc_calls md hans4 hlen5 hok5
  have hblock2 := sameBlock_trans hblock1 hblock2
  have hblock3 := sameBlock_trans hblock2 hblock3
  have hblock4 := sameBlock_trans hblock3 hblock4
  rw [sameBlock_modeEq hblock1] at htrace2 hheld2
  rw [sameBlock_modeEq hblock2] at htrace3 hheld3
  rw [sameBlock_modeEq hblock3] at htrace4 hheld4
  refine ⟨![b0, b1, b2, b3, b4, b5, b6, b7, b8, b9, b10, b11, b12], t, ?_, ?_, hans, ?_, ?_⟩
  · rw [configureAllProc, bind_run_ok hrun1, bind_run_ok hrun2, bind_run_ok hrun3, bind_run_ok hrun4, hrun]
  · exact sameBlock_trans (sameBlock_mode hblock4 md) hblock
  · rw [htrace, htrace4, htrace3, htrace2, htrace1]
    simp only [configureEvents, List.append_assoc]
    rfl
  · refine ((((hheld1.trans hheld2 (sameBlock_params hblock1)).trans hheld3 (sameBlock_params hblock2)).trans hheld4
      (sameBlock_params hblock3)).trans hheld (sameBlock_params hblock4)).congr (fun x => ?_) fun y => ?_
    · obtain ⟨high, mid, low, rfl⟩ := exists_fields x
      simp [insertField_mid, insertField_high, byteOfFields_and_fc, byteOfFields_or_mode]
    · obtain ⟨high, mid, low, rfl⟩ := exists_fields y
      simp [insertField_mid, insertField_high, extractLsb'_byteOfFields]

/-- Settles O36: ConfigureAll and its answer. -/
theorem configureAllResult : Obligations.ConfigureAllResult := by
  intro s op ot sb fl md as rest hop h hlen hok
  obtain ⟨b, t, hrun, hblock, hans, htrace, hheld⟩ := configureAllProc_calls op ot sb fl md h hlen hok
  have hsteps : steps (.configureAll op ot sb fl md) s = .ok .absent t := bind_run_ok hrun
  refine ⟨b, _, exec_of_steps_ok hop hsteps, sameBlock_respond hblock _ _, hans, congrArg (· ++ [_]) htrace,
    fun he hs x y hx hy => ?_⟩
  obtain ⟨-, hctrl, hconfig⟩ := hheld he hs x y hx hy
  exact ⟨hctrl, hconfig⟩

/-! ### INIT on the right chip -/

/-- The sensor's calibration bytes lie outside CTRL_MEAS and CONFIG. -/
theorem nvm_notMem_config (k : Fin 24) : 0x88 + k.val ∉ [0xF4, 0xF5] := by
  have := k.isLt
  simp only [List.mem_cons, List.not_mem_nil, or_false]
  omega

/-- INIT's steps on the right chip: the interface and the ID, the reset and the wait that ends the startup window, the
calibration, the default configuration (R110). -/
theorem initProc_calls {s : State} {nvm : Fin 24 → Byte} {as rest : List Answer} (h : s.answers = as ++ rest)
    (hlen : as.length = 42) (hok : allOk as) (hstart : s.starting = false) (hid : s.sensorByte 0xD0 = some 0x58#8)
    (hnvm : ∀ k : Fin 24, s.sensorByte (0x88 + k.val) = some (nvm k)) :
    ∃ b t, initProc s = .ok () t ∧
      sameBlock { s with
        lifecycle := .ready, addrValid := true, mode := .sleep, tFineValid := false, cal := calibOfNvm nvm,
        calValid := true, pollBudget := s.params.pollCeilingMs } t ∧
      t.answers = rest ∧
      t.trace = s.trace ++ [.ifI true, .rd 0xD0#8 1 (some [0x58#8]), .wr 0xE0#8 [0xB6#8] true,
        .dly s.params.startupDelayMs true] ++ calibrationEvents nvm ++
        configureEvents .sleep .x1 .x1 .ms125 .off .sleep b ∧
      (s.params.envModel = .mem → t.sensorByte 0xF4 = some 0x24#8 ∧ t.sensorByte 0xF5 = some 0x40#8) := by
  match as, hlen with
  | a1 :: a2 :: a3 :: a4 :: bs, hlen =>
    simp only [allOk, List.forall_mem_cons] at hok
    obtain ⟨h1, h2, h3, h4, hok⟩ := hok
    have hlen : bs.length = 12 + 26 := Nat.add_right_cancel (m := 4) hlen
    obtain ⟨calAs, confAs, rfl, hlenCal, hlenConf, hokCal, hokConf⟩ := allOk_split hlen hok
    simp only [List.cons_append, List.append_assoc] at h
    obtain ⟨s2, hblock2, hans2, htrace2, hsensor2, -, hrun2⟩ :=
      checkIdProc_ok (s := s.opened (a2 :: a3 :: a4 :: (calAs ++ (confAs ++ rest)))) rfl h2 hstart hid
    rw [if_pos rfl] at hrun2
    obtain ⟨s3, hrun3, hblock3, hans3, htrace3, hctrl3, hconfig3, hsensor3⟩ := softReset_calls hans2 h3
    obtain ⟨s4, hrun4, hblock4, hans4, htrace4, hmem4, hstart4⟩ := delay_settles hans3 h4 le_rfl
    obtain ⟨b5, s5, hrun5, hblock5, hans5, htrace5, hsensor5, hstart5, hheld5⟩ := fetchCal_ok hans4 hlenCal hokCal
    obtain ⟨b, s6, hrun6, hblock6, hans6, htrace6, hheld6⟩ :=
      configureAllProc_calls .x1 .x1 .ms125 .off .sleep hans5 hlenConf hokConf
    have hnvm5 : b5 = nvm := funext fun k => hheld5 hstart4 k (nvm k) <|
      (State.sensorByte_congr s3 s4 hmem4 _).trans <| (hsensor3 _ (nvm_notMem_config k)).trans <|
        (hsensor2 _ List.not_mem_nil).trans (hnvm k)
    have hregs5 : s5.params = s.params ∧ s5.mode = .sleep ∧ s3.params = s.params := by
      rw [sameBlock_iff] at hblock2 hblock3 hblock4 hblock5
      simp_all [State.opened]
    obtain ⟨hparams5, hmode5, hparams3⟩ := hregs5
    refine ⟨b, { s6 with pollBudget := s6.params.pollCeilingMs, lifecycle := .ready }, ?_, ?_, hans6, ?_, fun he => ?_⟩
    · rw [initProc_opened h h1, bind_run_ok hrun2, bind_run_ok hrun3, bind_run_ok (get_run s3), bind_run_ok hrun4,
        bind_run_ok hrun5, bind_run_ok hrun6, modify_run]
    · rw [sameBlock_iff] at *
      simp_all [State.opened]
    · simp only [htrace6, htrace5, htrace4, htrace3, htrace2, hmode5, hparams3, hnvm5]
      simp [State.opened]
    · have held5 (x : Nat) : s5.sensorByte x = s3.sensorByte x :=
        (hsensor5 x List.not_mem_nil).trans (State.sensorByte_congr s3 s4 hmem4 x)
      obtain ⟨-, hctrl, hconfig⟩ := hheld6 (by rwa [hparams5]) (hstart5 hstart4) _ _ ((held5 _).trans hctrl3)
        ((held5 _).trans hconfig3)
      exact ⟨hctrl, hconfig⟩

/-- Settles O37: INIT's steps and their answer. -/
theorem initResult : Obligations.InitResult := by
  intro s nvm as rest hs h hlen hok hstart hid hnvm
  obtain ⟨b, t, hrun, hblock, hans, htrace, hconfig⟩ := initProc_calls h hlen hok hstart hid hnvm
  have hsteps : steps .init s = .ok .absent t := bind_run_ok hrun
  exact ⟨b, _, exec_init_of_steps_ok hs hsteps, sameBlock_respond hblock _ _, hans, congrArg (· ++ [_]) htrace, hconfig⟩

end Sys2Proof.Machine
end

section
/-! The compensation formulas (42_compensation section 1): each stage of CompP in exact integers, the two branches of its
division, and the worked example. -/

namespace Sys2Proof.Machine

/-! ### The stages of CompP (R87) -/

theorem presV1_toInt (tf : S32) : (presV1 tf).toInt = wrap (tf.toInt / 2 - 64000) := by
  rw [presV1, toInt_sub_wrap, toInt_sshiftRight_div]
  rfl

theorem presQ_toInt (tf : S32) : (presQ tf).toInt = wrap ((presV1 tf).toInt / 4 * ((presV1 tf).toInt / 4)) := by
  rw [presQ, toInt_mul_wrap, toInt_sshiftRight_div]
  rfl

theorem presV2_toInt (c : Calib) (tf : S32) :
    (presV2 c tf).toInt =
      wrap (wrap (wrap ((presQ tf).toInt / 2048 * c.p6.toInt) + wrap (wrap ((presV1 tf).toInt * c.p5.toInt) * 2)) / 4 +
        wrap (c.p4.toInt * 65536)) := by
  rw [presV2, toInt_add_wrap, toInt_sshiftRight_div, toInt_add_wrap, toInt_mul_wrap, toInt_sshiftRight_div, toInt_double,
    toInt_mul_wrap, toInt_shiftLeft_16, toInt_coefficient, toInt_coefficient, toInt_coefficient]
  rfl

theorem presScale_toInt (c : Calib) (tf : S32) :
    (presScale c tf).toInt =
      wrap (wrap (c.p3.toInt * ((presQ tf).toInt / 8192)) / 8 + wrap (c.p2.toInt * (presV1 tf).toInt) / 2) / 262144 := by
  rw [presScale, toInt_sshiftRight_div, toInt_add_wrap, toInt_sshiftRight_div, toInt_mul_wrap, toInt_sshiftRight_div,
    toInt_sshiftRight_div, toInt_mul_wrap, toInt_coefficient, toInt_coefficient]
  rfl

theorem presDenominator_toInt (c : Calib) (tf : S32) :
    (presDenominator c tf).toInt = wrap (wrap (32768 + (presScale c tf).toInt) * c.p1.toNat) / 32768 := by
  rw [presDenominator, toInt_sshiftRight_div, toInt_mul_wrap, toInt_add_wrap, toInt_unsigned c.p1 (by omega)]
  rfl

/-! ### The candidate and the correction (R89, R90) -/

theorem presCandidate_toNat (c : Calib) (tf : S32) (adc : U20) :
    ((presCandidate c tf adc).toNat : Int) =
      (1048576 - (adc.toNat : Int) - (presV2 c tf).toInt / 4096) * 3125 % 4294967296 := by
  rw [toNat_eq_toInt_emod, presCandidate, toInt_mul_wrap, wrap_emod, toInt_sub_wrap, toInt_sub_wrap,
    toInt_sshiftRight_div, toInt_unsigned adc (by omega), Int.mul_emod, wrap_emod, ← Int.emod_sub_emod, wrap_emod,
    Int.emod_sub_emod, ← Int.mul_emod]
  rfl

theorem presW1_toInt (c : Calib) (p : U32) :
    (presW1 c p).toInt =
      wrap (c.p9.toInt * (((p.toNat : Int) / 8 * ((p.toNat : Int) / 8)) % 4294967296 / 8192)) / 4096 := by
  rw [presW1, toInt_sshiftRight_div, toInt_mul_wrap, toInt_coefficient, toInt_square]
  rfl

theorem presW2_toInt (c : Calib) (p : U32) :
    (presW2 c p).toInt = wrap ((p.toNat : Int) / 4 * c.p8.toInt) / 8192 := by
  rw [presW2, toInt_sshiftRight_div, toInt_mul_wrap, toInt_coefficient, toInt_quarter]
  rfl

theorem presCorrected_toNat (c : Calib) (p : U32) :
    ((presCorrected c p).toNat : Int) =
      ((p.toNat : Int) + wrap ((presW1 c p).toInt + (presW2 c p).toInt + c.p7.toInt) / 16) % 4294967296 := by
  rw [toNat_eq_toInt_emod, presCorrected, toInt_add_wrap, wrap_emod, toInt_sshiftRight_div, toInt_add_wrap,
    toInt_add_wrap, wrap_add_wrap, toInt_coefficient, ← Int.emod_add_emod, ← toNat_eq_toInt_emod]
  rfl

/-- Settles O51: with a T_FINE each stage's integer goes into the next stage's equation; without one check 6 faults. -/
theorem pressureFormula : Obligations.PressureFormula := by
  refine fun s adc => ⟨compP_unset adc, fun hv => ⟨_, compP_valid adc hv, ?_⟩⟩
  dsimp only
  simp only [← presV1_toInt, ← presQ_toInt, ← presV2_toInt, ← presScale_toInt, ← presDenominator_toInt,
    ← presCandidate_toNat, ← toNat_eq_toInt_emod, ← presQuotient_toNat, ← presW1_toInt, ← presW2_toInt,
    ← presCorrected_toNat]
  have hzero : (presDenominator s.cal s.tFine).toInt = 0 ↔ presDenominator s.cal s.tFine = 0#32 :=
    BitVec.toInt_inj (y := 0#32)
  rw [compensatedPressure]
  exact ⟨fun h => if_pos (hzero.mp h), fun h => by rw [if_neg (mt hzero.mpr h)]⟩

/-! ### The two branches of the division (R89) -/

/-- Below 2^31 the doubled candidate does not wrap. -/
theorem presQuotient_low {c d : U32} (h : c.toNat < 0x80000000) : (presQuotient c d).toNat = 2 * c.toNat / d.toNat := by
  have hq := presQuotient_toNat c d
  rw [if_pos (by omega)] at hq
  rw [Nat.mul_comm]
  exact_mod_cast hq

/-- From 2^31 on the quotient is doubled, which wraps for a divisor of 1 alone. -/
theorem presQuotient_high {c d : U32} (h : 0x80000000 ≤ c.toNat) :
    (presQuotient c d).toNat = 2 * (c.toNat / d.toNat) % 4294967296 := by
  have hq := presQuotient_toNat c d
  rw [if_neg (by omega)] at hq
  rw [Nat.mul_comm]
  exact_mod_cast hq

/-- Doubling before a division gains at most 1 over doubling after it. -/
theorem two_mul_div_bounds (c : Nat) {d : Nat} (h : 0 < d) : 2 * (c / d) ≤ 2 * c / d ∧ 2 * c / d ≤ 2 * (c / d) + 1 := by
  refine ⟨Nat.mul_div_le_mul_div_assoc 2 c d, Nat.le_of_lt_succ (Nat.div_lt_of_lt_mul ?_)⟩
  have hmod := Nat.mod_lt c h
  have hdiv := Nat.div_add_mod c d
  linarith [Nat.mul_add d (2 * (c / d)) 2, hmod, hdiv]

/-- Settles O52: the bounds of the doubled quotient, and no wrap from a divisor of 2 on. -/
theorem divisionBranchesAgree : Obligations.DivisionBranchesAgree := by
  intro c d hd
  have hpos : 0 < d.toNat := Nat.pos_of_ne_zero fun h => hd (BitVec.eq_of_toNat_eq h)
  obtain ⟨hlow, hhigh⟩ := two_mul_div_bounds c.toNat hpos
  refine ⟨fun h => ?_, presQuotient_high, fun h h2 => ?_⟩
  · rw [presQuotient_low h]
    exact ⟨rfl, hlow, hhigh⟩
  · have hle : c.toNat / d.toNat ≤ c.toNat / 2 := Nat.div_le_div_left h2 (by decide)
    have hc := c.isLt
    rw [presQuotient_high h, Nat.mod_eq_of_lt (by omega)]
    exact ⟨hlow, hhigh⟩

/-- Settles O54: each stage evaluated on the example's words. -/
theorem referenceExample : Obligations.ReferenceExample := by
  unfold Obligations.ReferenceExample
  decide

end Sys2Proof.Machine
end

section
/-! The measurement commands (45_measurement sections 1 and 2): FetchRaw's two ends, and the three commands built on it. -/

namespace Sys2Proof.Machine

/-! ### FetchRaw (R99) -/

/-- Armed with the ceiling, the budget holds the whole periods of the ceiling. -/
theorem wholePeriods_armed (s : State) :
    ({ s with pollBudget := s.params.pollCeilingMs } : State).wholePeriods = waitsPerPoll s.params := rfl

/-- FetchRaw arms the budget and polls. -/
theorem fetchRaw_run (base : Byte) (s : State) :
    fetchRaw base s =
      (poll >>= fun _ => memRead base 3 >>= fun bytes =>
        pure (rawCount (bytes.getD 0 0) (bytes.getD 1 0) (bytes.getD 2 0)))
        { s with pollBudget := s.params.pollCeilingMs } := bind_run_ok (modify_run _ s)

section
variable {s s' : State} {waits : List (Answer × Answer)} {last : Answer} {rest : List Answer} (base : Byte)

/-- The fetch from `s'`, whose block is that of `s`, when the measuring bit is clear within the ceiling. -/
theorem fetchRaw_ready {burst : Answer} (hs : sameBlock s s') (hbase : 0xF6 ≤ base.toNat)
    (hlen : waits.length ≤ waitsPerPoll s.params) (hbusy : waitsBusy waits) (hlast : last.ok = true)
    (hclear : ¬busy last) (hburst : burst.ok = true) (h : s'.answers = waitAnswers waits ++ last :: burst :: rest) :
    ∃ t, fetchRaw base s' = .ok (burstCount burst) t ∧
      sameBlock { s with pollBudget := s.params.pollCeilingMs, pstate := .ready } t ∧ t.answers = rest ∧
      t.trace = s'.trace ++ (waitEvents s.params.pollPeriod.ms waits ++
        [.rd 0xF3#8 1 (some [last.b0]), .rd base 3 (some [burst.b0, burst.b1, burst.b2])]) := by
  have hparams : s'.params = s.params := sameBlock_params hs
  rw [← hparams, ← wholePeriods_armed] at hlen
  obtain ⟨t, hpoll, hblock, hans, htrace⟩ := poll_ready hlen hbusy hlast hclear h
  obtain ⟨u, hread, hblock', hrest, htrace', -⟩ := memRead_burst base hans hburst hbase
  refine ⟨u, ?_, ?_, hrest, ?_⟩
  · rw [fetchRaw_run, bind_run_ok hpoll, bind_run_ok hread, pure_run]
    rfl
  · exact sameBlock_trans (sameBlock_withPState (sameBlock_rearm hs) .ready) (sameBlock_trans hblock hblock')
  · rw [htrace', htrace, List.append_assoc, List.append_assoc, hparams]
    rfl

/-- The same fetch when the measuring bit is set at every read. -/
theorem fetchRaw_timedOut (hs : sameBlock s s') (hlen : waits.length = waitsPerPoll s.params) (hbusy : waitsBusy waits)
    (hlast : last.ok = true) (hset : busy last) (h : s'.answers = waitAnswers waits ++ last :: rest) :
    ∃ t, fetchRaw base s' = .error (.raise .pollTimeoutError) t ∧
      sameBlock { s with pollBudget := s.params.pollCeilingMs % s.params.pollPeriod.ms, pstate := .timedOut } t ∧
      t.answers = rest ∧
      t.trace = s'.trace ++ (waitEvents s.params.pollPeriod.ms waits ++ [.rd 0xF3#8 1 (some [last.b0])]) := by
  have hparams : s'.params = s.params := sameBlock_params hs
  rw [← hparams, ← wholePeriods_armed] at hlen
  obtain ⟨t, hpoll, hblock, hans, htrace⟩ := poll_timedOut hlen hbusy hlast hset h
  refine ⟨t, by rw [fetchRaw_run, bind_run_error hpoll], ?_, hans, ?_⟩
  · rw [sameBlock_iff] at *
    simp_all
  · rw [htrace, List.append_assoc, hparams]

end

/-! ### GET_TEMPERATURE and GET_PRESSURE -/

/-- T_FINE as CompT writes it (R86). -/
abbrev State.withTFine (s : State) (tf : S32) : State := { s with tFine := tf, tFineValid := true }

theorem sameBlock_withTFine {s t : State} (h : sameBlock s t) (tf : S32) :
    sameBlock (s.withTFine tf) (t.withTFine tf) := by
  rw [sameBlock_iff] at *
  simp_all

theorem sameBlock_cal {s t : State} (h : sameBlock s t) : t.cal = s.cal := by
  rw [sameBlock_iff] at h
  simp_all

theorem compT_withTFine {s : State} {c : Calib} (adc : U20) (h : s.cal = c) :
    compT adc s = .ok (centiDegrees (fineTemperature c adc)) (s.withTFine (fineTemperature c adc)) := by
  rw [← h]
  exact compT_run adc s

/-- Settles O56: FetchRaw, CompT and the answer. -/
theorem getTemperatureResult : Obligations.GetTemperatureResult := by
  intro s waits done burst rest hop hlen hbusy hdone hclear hburst h
  obtain ⟨t, hfetch, hblock, hans, htrace⟩ :=
    fetchRaw_ready 0xFA#8 (sameBlock_refl s) (by decide) hlen hbusy hdone hclear hburst h
  have hcal : t.cal = s.cal := (sameBlock_cal hblock :)
  have hsteps : steps .getTemperature s = .ok (.temperature (centiDegrees (fineTemperature s.cal (burstCount burst))))
      (t.withTFine (fineTemperature s.cal (burstCount burst))) := by
    rw [steps, bind_run_ok hfetch, bind_run_ok (compT_withTFine _ hcal), pure_run]
  refine ⟨_, exec_of_steps_ok hop hsteps, sameBlock_respond (sameBlock_withTFine hblock _) _ _, hans, ?_⟩
  simp [htrace]

/-- Settles O57: T_FINE's check, FetchRaw, CompP and the answer. -/
theorem getPressureResult : Obligations.GetPressureResult := by
  intro s waits done burst rest hop hvalid hlen hbusy hdone hclear hburst h
  obtain ⟨t, hfetch, hblock, hans, htrace⟩ :=
    fetchRaw_ready 0xF7#8 (sameBlock_refl s) (by decide) hlen hbusy hdone hclear hburst h
  have hregs : t.cal = s.cal ∧ t.tFine = s.tFine ∧ t.tFineValid = true := by
    rw [sameBlock_iff] at hblock
    simp_all
  obtain ⟨hcal, htfine, hvalid'⟩ := hregs
  have hsteps : steps .getPressure s = .ok (.pressure (compensatedPressure s.cal s.tFine (burstCount burst))) t := by
    rw [steps, bind_run_ok (requireTFine_valid hvalid), bind_run_ok hfetch, bind_run_ok (compP_valid _ hvalid'), hcal,
      htfine, pure_run]
  refine ⟨_, exec_of_steps_ok hop hsteps, sameBlock_respond hblock _ _, hans, ?_⟩
  simp [htrace]

/-! ### GET_ALL -/

/-- GET_ALL's first step: in Forced mode the codec writes the Forced code again, else nothing happens (R128). -/
theorem retrigger_ok {s : State} {trig rest : List Answer} (hlen : trig.length = if s.mode = .forced then 2 else 0)
    (hok : allOk trig) (h : s.answers = trig ++ rest) :
    ∃ b t, retrigger s = .ok () t ∧ sameBlock s t ∧ t.answers = rest ∧
      t.trace = s.trace ++ retriggerEvents s.mode b := by
  simp only [retrigger, bind_run_ok (get_run s), retriggerEvents]
  by_cases hm : s.mode = .forced
  · simp only [if_pos hm] at hlen ⊢
    obtain ⟨a1, a2, rfl⟩ := List.length_eq_two.mp hlen
    simp only [allOk, List.forall_mem_cons] at hok
    obtain ⟨h1, h2, -⟩ := hok
    obtain ⟨b, t, hrun, hblock, hans, htrace⟩ := codecSet_calls 0xF4#8 (Mode.forced.code.setWidth 8) 0 2 h h1 h2
    rw [codecSetEvents, insertField_mode] at htrace
    exact ⟨b, t, hrun, hblock, hans, htrace⟩
  · simp only [if_neg hm] at hlen ⊢
    obtain rfl := List.length_eq_zero_iff.mp hlen
    exact ⟨0, s, rfl, sameBlock_refl s, h, (List.append_nil _).symm⟩

/-- GET_ALL's steps after its temperature. -/
def afterTemperature (t : S32) : Proc RspVal := do
  let adcP ← fetchRaw 0xF7#8
  let p ← compP adcP
  return .all t p (← altQuick p)

/-- GET_ALL up to its temperature, with every call succeeding. -/
theorem getAll_temperature {s : State} {trig : List Answer} {waits : List (Answer × Answer)} {done burst : Answer}
    {rest : List Answer} (htrig : trig.length = if s.mode = .forced then 2 else 0) (hok : allOk trig)
    (hlen : waits.length ≤ waitsPerPoll s.params) (hbusy : waitsBusy waits) (hdone : done.ok = true)
    (hclear : ¬busy done) (hburst : burst.ok = true)
    (h : s.answers = trig ++ (waitAnswers waits ++ done :: burst :: rest)) :
    ∃ b t, steps .getAll s = afterTemperature (centiDegrees (fineTemperature s.cal (burstCount burst))) t ∧
      sameBlock ({ s with pollBudget := s.params.pollCeilingMs, pstate := .ready }.withTFine
        (fineTemperature s.cal (burstCount burst))) t ∧
      t.answers = rest ∧
      t.trace = s.trace ++ retriggerEvents s.mode b ++ waitEvents s.params.pollPeriod.ms waits ++
        [.rd 0xF3#8 1 (some [done.b0]), .rd 0xFA#8 3 (some [burst.b0, burst.b1, burst.b2])] := by
  obtain ⟨b, t, hretrigger, hblock, hans, htrace⟩ := retrigger_ok htrig hok h
  obtain ⟨u, hfetch, hblock', hrest, htrace'⟩ :=
    fetchRaw_ready 0xFA#8 hblock (by decide) hlen hbusy hdone hclear hburst hans
  have hcal : u.cal = s.cal := (sameBlock_cal hblock' :)
  refine ⟨b, u.withTFine (fineTemperature s.cal (burstCount burst)), ?_, sameBlock_withTFine hblock' _, hrest, ?_⟩
  · rw [steps, bind_run_ok hretrigger, bind_run_ok hfetch, bind_run_ok (compT_withTFine _ hcal),
      afterTemperature]
  · simp [htrace', htrace]

theorem altQuick_ok {s : State} {a : Answer} {rest : List Answer} (p : U32) (h : s.answers = a :: rest)
    (ha : a.ok = true) :
    ∃ t, altQuick p s = .ok (Config.altFloat a.real) t ∧ sameBlock s t ∧ t.answers = rest ∧
      t.trace = s.trace ++ [.pow (p.toNat : Rat) (190284 / 1000000) (some a.real)] := by
  refine ⟨{ s with answers := rest }.log (.pow (p.toNat : Rat) quickExponent (some a.real)), ?_,
    sameBlock_trans (sameBlock_answers s rest) (sameBlock_log _ _), rfl, rfl⟩
  have hpower := power_run (p.toNat : Rat) quickExponent s
  rw [s.nextAnswer_cons a rest h, if_pos ha] at hpower
  exact bind_run_ok hpower

/-- Settles O58: the temperature, then FetchRaw, CompP with the T_FINE just written, and AltQuick. -/
theorem getAllResult : Obligations.GetAllResult := by
  intro s trig waitsT waitsP doneT burstT doneP burstP pw rest hop htrig hok hlenT hbusyT hdoneT hclearT hburstT hlenP
    hbusyP hdoneP hclearP hburstP hpw h
  dsimp only
  simp only [List.append_assoc, List.cons_append] at h
  obtain ⟨b, t, hsteps, hblock, hans, htrace⟩ :=
    getAll_temperature htrig hok hlenT hbusyT hdoneT hclearT hburstT h
  obtain ⟨u, hfetch, hblock, hans', htrace'⟩ :=
    fetchRaw_ready 0xF7#8 hblock (by decide) hlenP hbusyP hdoneP hclearP hburstP hans
  have hregs : u.cal = s.cal ∧ u.tFine = fineTemperature s.cal (burstCount burstT) ∧ u.tFineValid = true := by
    rw [sameBlock_iff] at hblock
    simp_all
  obtain ⟨hcal, htfine, hvalid⟩ := hregs
  obtain ⟨v, halt, hblock', hrest, htrace''⟩ :=
    altQuick_ok (compensatedPressure u.cal u.tFine (burstCount burstP)) hans' hpw
  rw [afterTemperature, bind_run_ok hfetch, bind_run_ok (compP_valid _ hvalid), bind_run_ok halt, hcal, htfine,
    pure_run] at hsteps
  refine ⟨b, _, exec_of_steps_ok hop hsteps, sameBlock_respond (sameBlock_trans hblock hblock') _ _, hrest, ?_⟩
  simp [htrace'', htrace', htrace, hcal, htfine]

/-- Settles O59: the fetch that times out stops the command, and what came before it stays. -/
theorem measurementTimeout : Obligations.MeasurementTimeout := by
  refine ⟨fun i s waits last rest hi hop hlen hbusy hlast hset h => ?_,
    fun s trig waits last rest hop htrig hok hlen hbusy hlast hset h => ?_,
    fun s trig waitsT waitsP doneT burstT last rest hop htrig hok hlenT hbusyT hdoneT hclearT hburstT hlenP hbusyP hlast
      hset h => ?_⟩
  · have fetches : ∃ base, ∀ t, fetchRaw base s = .error (.raise .pollTimeoutError) t →
        steps i s = .error (.raise .pollTimeoutError) t := by
      obtain rfl | ⟨rfl, hvalid⟩ := hi
      · exact ⟨0xFA#8, fun t => bind_run_error⟩
      · exact ⟨0xF7#8, fun t ht => (bind_run_ok (requireTFine_valid hvalid)).trans (bind_run_error ht)⟩
    obtain ⟨base, hsteps⟩ := fetches
    obtain ⟨t, hfetch, hblock, hans, htrace⟩ := fetchRaw_timedOut base (sameBlock_refl s) hlen hbusy hlast hset h
    refine ⟨_, exec_of_steps_raise hop (hsteps t hfetch), sameBlock_respond hblock _ _, hans, ?_⟩
    simp [htrace]
  · rw [List.append_assoc] at h
    obtain ⟨b, t, hretrigger, hblock, hans, htrace⟩ := retrigger_ok htrig hok h
    obtain ⟨u, hfetch, hblock', hrest, htrace'⟩ := fetchRaw_timedOut 0xFA#8 hblock hlen hbusy hlast hset hans
    have hsteps : steps .getAll s = .error (.raise .pollTimeoutError) u := by
      rw [steps, bind_run_ok hretrigger, bind_run_error hfetch]
    refine ⟨b, _, exec_of_steps_raise hop hsteps, sameBlock_respond hblock' _ _, hrest, ?_⟩
    simp [htrace', htrace]
  · simp only [List.append_assoc, List.cons_append] at h
    obtain ⟨b, t, hsteps, hblock, hans, htrace⟩ :=
      getAll_temperature htrig hok hlenT hbusyT hdoneT hclearT hburstT h
    obtain ⟨u, hfetch, hblock', hrest, htrace'⟩ := fetchRaw_timedOut 0xF7#8 hblock hlenP hbusyP hlast hset hans
    rw [afterTemperature, bind_run_error hfetch] at hsteps
    refine ⟨b, _, exec_of_steps_raise hop hsteps, sameBlock_respond hblock' _ _, hrest, ?_⟩
    simp [htrace', htrace]

end Sys2Proof.Machine
end
